-- ==== Sys2Proof/Word.lean ====
section
/-! DEFINITION. The plainest data of the Brompel 8840: bytes, words, the two channels (which are also
the two sides of a pair), the two pairs, the four drives, and the fixed-size tables indexed by them. -/

namespace Sys2Proof

/-- Eight bits of host memory or of a field on the diskette (Conventions, Numbers and words). -/
abbrev Byte := BitVec 8

/-- A 16-bit word (Conventions, Numbers and words). -/
abbrev Word := BitVec 16

/-- A drive channel, A or B. It is also the side of a pair that the channel serves
(Conventions: side A is the channel A drive, side B the channel B drive). -/
inductive Side where
  | A
  | B
deriving DecidableEq, Repr

/-- The other channel, or the other side of a pair. -/
def Side.other : Side → Side
  | .A => .B
  | .B => .A

/-- A pair: pair 0 is drives 0 and 2, pair 1 is drives 1 and 3 (Conventions). -/
inductive PairId where
  | p0
  | p1
deriving DecidableEq, Repr

/-- A drive, named by its channel and its pair: 0 is A0, 1 is A1, 2 is B0, 3 is B1. -/
structure Drive where
  side : Side
  pair : PairId
deriving DecidableEq, Repr

/-- One value for each side (or channel). -/
structure BySide (α : Type) where
  a : α
  b : α
deriving DecidableEq, Repr

/-- The value of one side. -/
def BySide.get {α : Type} (x : BySide α) : Side → α
  | .A => x.a
  | .B => x.b

/-- The table with one side's value replaced. -/
def BySide.set {α : Type} (x : BySide α) (c : Side) (v : α) : BySide α :=
  match c with
  | .A => { x with a := v }
  | .B => { x with b := v }

/-- One value for each pair. -/
structure ByPair (α : Type) where
  p0 : α
  p1 : α
deriving DecidableEq, Repr

/-- The value of one pair. -/
def ByPair.get {α : Type} (x : ByPair α) : PairId → α
  | .p0 => x.p0
  | .p1 => x.p1

/-- The table with one pair's value replaced. -/
def ByPair.set {α : Type} (x : ByPair α) (p : PairId) (v : α) : ByPair α :=
  match p with
  | .p0 => { x with p0 := v }
  | .p1 => { x with p1 := v }

/-- One value for each of the four drives. -/
abbrev ByDrive (α : Type) := BySide (ByPair α)

/-- The value of one drive. -/
def BySide.drive {α : Type} (x : ByDrive α) (d : Drive) : α := (x.get d.side).get d.pair

/-- The table with one drive's value replaced. -/
def BySide.setDrive {α : Type} (x : ByDrive α) (d : Drive) (v : α) : ByDrive α :=
  x.set d.side ((x.get d.side).set d.pair v)

/-- The same value for both sides. -/
def BySide.both {α : Type} (v : α) : BySide α := ⟨v, v⟩

/-- The same value for all four drives. -/
def BySide.allDrives {α : Type} (v : α) : ByDrive α := ⟨⟨v, v⟩, ⟨v, v⟩⟩

/-- The drive's number, 0 to 3 (Conventions, Drives, channels, sides and surfaces). -/
def Drive.number : Drive → Nat
  | ⟨.A, .p0⟩ => 0
  | ⟨.A, .p1⟩ => 1
  | ⟨.B, .p0⟩ => 2
  | ⟨.B, .p1⟩ => 3

/-- The drive of a number, where the number is 0 to 3. -/
def Drive.ofNumber? : Nat → Option Drive
  | 0 => some ⟨.A, .p0⟩
  | 1 => some ⟨.A, .p1⟩
  | 2 => some ⟨.B, .p0⟩
  | 3 => some ⟨.B, .p1⟩
  | _ => none

/-- The four drives in number order. -/
def Drive.all : List Drive := [⟨.A, .p0⟩, ⟨.A, .p1⟩, ⟨.B, .p0⟩, ⟨.B, .p1⟩]

/-- The pair's number, 0 or 1. -/
def PairId.number : PairId → Nat
  | .p0 => 0
  | .p1 => 1

/-- The pair of a number, where the number is 0 or 1. -/
def PairId.ofNumber? : Nat → Option PairId
  | 0 => some .p0
  | 1 => some .p1
  | _ => none

/-- A word from its low byte and its high byte, given as numbers. -/
def lohi (lo hi : Nat) : Word := BitVec.ofNat 16 (lo % 256 + 256 * (hi % 256))

end Sys2Proof
end

