-- ==== Sys2Proof/Syntax.lean ====
section
/-! DEFINITION. The commands of the 8840: one constructor for each row of spec/opcode_table.json, with
the operands each needs. A row is a host write to a register, an event on a pin or at a drive, the
expiry of a time, the completion of a memory access, or a request of one block reaching another. What
arrives from outside (the data of a bus read, the bytes under a head, the levels of drive lines, the
measured time between index pulses) is an operand: host memory, the diskettes and the clock belong to
the outside world, not to the part. -/

namespace Sys2Proof

/-- The input lines of one drive (Signal Summary): true is active. -/
structure Lines where
  ready : Bool
  trk0 : Bool
  wprt : Bool
  aux : Bool
deriving DecidableEq, Repr

/-- What START's first reads of the area returned (R163, stage 2): the configuration block, the eight desk
records and the four drive records. -/
structure AreaData where
  config : List Word
  desks : List Word
  drives : List Word
deriving DecidableEq, Repr

/-- What a completed read of START returned (R62, R163): the tables of stage 2, or the image entries of
stage 5, from position 0 as far as the length goes. -/
inductive StartRead where
  | tables (area : AreaData)
  | image (words : List Word)
deriving DecidableEq, Repr

/-- What the data separator sees of a field that passes under the head: the run of sync bytes before it
(R122), and its bytes, mark first and check word last (10.10). -/
structure FieldRead where
  sync : Nat
  bytes : List Byte
deriving DecidableEq, Repr

/-- The commands of the part, in the order of spec/opcode_table.json. -/
inductive Instr where
  /-- START (R163). -/
  | start
  /-- START_READ_COMPLETE (R165), with the words that START's reads returned: those of stage 2, or the
  image entries of stage 5 (R163). -/
  | startReadComplete (read : StartRead)
  /-- STOP (R28). -/
  | stop
  /-- ABORT_ALL (R29). -/
  | abortAll
  /-- RESET (R173). `moved` counts the words of the record access in progress that had reached their
  end when the reset took effect, the completed bus cycle included. -/
  | reset (moved : Nat)
  /-- CLOCK_LOAD (R95). -/
  | clockLoad
  /-- PRESET_READ_COMPLETE (R95), with the edition preset the read returned. -/
  | presetReadComplete (preset : Word)
  /-- CLOCK_RUN (R96). -/
  | clockRun
  /-- CLOCK_HALT (R96). -/
  | clockHalt
  /-- AREA_BASE_WRITE (R167), with the word written. -/
  | areaBaseWrite (w : Word)
  /-- ACTION_WRITE (R168), with the word written. -/
  | actionWrite (w : Word)
  /-- DONE_CLEAR (R169): a write of `w` to DONE LOW, or to DONE HIGH when `high`. -/
  | doneClear (high : Bool) (w : Word)
  /-- ATTENTION_CLEAR (R169), with the word written. -/
  | attentionClear (w : Word)
  /-- POST (R10): the intake takes the POST at the head of the action queue. -/
  | post
  /-- SLOT_READ_COMPLETE (R11), with the 16 words of the slot the read returned. -/
  | slotReadComplete (words : List Word)
  /-- WITHDRAW (R20). -/
  | withdraw
  /-- REPOST (R22). -/
  | repost
  /-- SURVEY_ONCE (R156). -/
  | surveyOnce
  /-- SURVEY_LOOP (R156). -/
  | surveyLoop
  /-- SURVEY_STOP (R159). -/
  | surveyStop
  /-- BAD_ACTION (R7). -/
  | badAction
  /-- RESET_LINE (R173). `moved` counts the words of the access in progress that reached memory. -/
  | resetLine (moved : Nat)
  /-- RESET_LINE_RELEASE (R173). -/
  | resetLineRelease
  /-- BUS_GRANT (R171). -/
  | busGrant
  /-- BUS_ERROR_RECORD (R172): `word` counts the words of the request that moved before the error. -/
  | busErrorRecord (word : Nat)
  /-- MEMORY_ERROR (R141): a bus error on the buffer access of channel `c`. -/
  | memoryError (c : Side)
  /-- BUFFER_COPY_COMPLETE (R129). -/
  | bufferCopyComplete (c : Side)
  /-- BUFFER_FETCH_COMPLETE (R130), with the bytes fetched. -/
  | bufferFetchComplete (c : Side) (data : List Byte)
  /-- DONE_BIT_SET (R24). -/
  | doneBitSet
  /-- DRIVE_ATTENTION (R154). -/
  | driveAttention (d : Drive)
  /-- SURVEY_DONE (R159). -/
  | surveyDone
  /-- CONFIG_ERROR (R165). -/
  | configError
  /-- AGE_TICK (R41). -/
  | ageTick
  /-- HEAD_UNLOAD_EXPIRY (R115). -/
  | headUnloadExpiry (d : Drive)
  /-- UNLOAD_TOUCH_END (R115). -/
  | unloadTouchEnd (c : Side)
  /-- SURVEY_WAIT_EXPIRY (R157). -/
  | surveyWaitExpiry
  /-- ROUND_TICK (R80). -/
  | roundTick
  /-- EDITION_COUNT (R97). -/
  | editionCount
  /-- CLAIM (R48): the claim of channel `c` reaches the roster. -/
  | claim (c : Side)
  /-- STEP_TIME_END (R109), with the track-0 level of the selected drive at that moment. -/
  | stepTimeEnd (c : Side) (trk0 : Bool)
  /-- SETTLE_END (R109). -/
  | settleEnd (c : Side)
  /-- HEAD_LOAD_END (R110). -/
  | headLoadEnd (c : Side)
  /-- ID_FIELD_READ (R126), with the field that passed. -/
  | idFieldRead (c : Side) (field : FieldRead)
  /-- DATA_FIELD_READ (R131), with the field that passed. -/
  | dataFieldRead (c : Side) (field : FieldRead)
  /-- DATA_FIELD_WRITTEN (R134). -/
  | dataFieldWritten (c : Side)
  /-- PASS_ACROSS (R76): from the buffer of channel `c` to the other channel. -/
  | passAcross (c : Side)
  /-- SEARCH_TIMEOUT (R138), for the sought sector of that number. -/
  | searchTimeout (c : Side) (sector : Nat)
  /-- INDEX_PULSE (R150), with the time since the last counted pulse in units of 0.1 ms. -/
  | indexPulse (c : Side) (elapsed : Nat)
  /-- NO_INDEX_TIMEOUT (R151). -/
  | noIndexTimeout (c : Side)
  /-- READY_SAMPLE (R146), with the levels the lines of drive `d` carry. -/
  | readySample (d : Drive) (lines : Lines)
  /-- SURVEY_STEP_TIMEOUT (R158). -/
  | surveyStepTimeout (c : Side)
  /-- NOMINAL_FINAL_FILL_END (R125). -/
  | nominalFinalFillEnd (c : Side)
deriving DecidableEq, Repr

end Sys2Proof
end

