-- ==== Sys2Proof/Decode.lean ====
section
/-! DEFINITION. What a word spells. The rows of spec/opcode_table.json are given no bits, so no word spells
a command of the table (log 30); a word that the host writes into a register spells the command of that
register (R162, R167 to R169, R176). -/

namespace Sys2Proof

/-- The command a word spells by the table's bits: the table gives no row any bits (log 30). -/
def decodeTableWord (_nbits _w : Nat) : Option Instr := none

/-- The six registers of the host (R166 to R169, 10.9). -/
inductive Register where
  | commandState
  | areaBase
  | action
  | doneLow
  | doneHigh
  | attention
deriving DecidableEq, Repr

/-- The command a code written into COMMAND/STATE names (10.8): a word that is not 1 to 7 names none (R162,
R176). `moved` is RESET's operand. -/
def commandOf? (code moved : Nat) : Option Instr :=
  match code with
  | 1 => some .start
  | 2 => some .stop
  | 3 => some .abortAll
  | 4 => some (.reset moved)
  | 5 => some .clockLoad
  | 6 => some .clockRun
  | 7 => some .clockHalt
  | _ => none

/-- The command of a host write of a word into a register (R176). -/
def Register.write? (r : Register) (w : Word) (moved : Nat) : Option Instr :=
  match r with
  | .commandState => commandOf? w.toNat moved
  | .areaBase => some (.areaBaseWrite w)
  | .action => some (.actionWrite w)
  | .doneLow => some (.doneClear false w)
  | .doneHigh => some (.doneClear true w)
  | .attention => some (.attentionClear w)

end Sys2Proof
end

