-- ==== Sys2Proof/Config.lean ====
section
/-! DEFINITION. What the spec fixes as numbers, and the one value it leaves open. -/

namespace Sys2Proof.Config

/-- Capacity of the split log, and the number of slots (R59, R4). -/
def logCapacity : Nat := 32

/-- Actions that may wait in the action queue (R168). -/
def actionCapacity : Nat := 8

/-- Greatest AREA BASE value for which the area lies below 0x100000 (R163). -/
def maxAreaBase : Nat := 0xFF9

/-- Size of the host's address space in bytes (Conventions). -/
def hostBytes : Nat := 0x100000

/-- Outward steps after which a recalibrate fails (R108). -/
def recalibrateSteps : Nat := 85

/-- Accepted index periods, in units of 0.1 ms, lowest and highest (R151). -/
def periodLow : Nat := 1584
def periodHigh : Nat := 1750

/-- Time the planned bytes of a FORMAT track take, in units of 0.1 ms: 5,200 bytes at 250 kbit/s, or
10,400 bytes at 500 kbit/s (R121, R125). DEDUCED, log 17. -/
def plannedTrackTime : Nat := 1664

/-- Waiting count at which a survey step goes before choosing (R157). -/
def surveyPatience : Nat := 10

/-- Greatest remaining time of the edition clock, and greatest rush window (R92, R93). -/
def maxRemaining : Nat := 5999
def maxRushWindow : Nat := 900

/-- The target cylinder of a MEND on an ATTACHED pair that has no entries in the split log: R44 names
the cylinder of the oldest entry and there is none. A free value, one for each index (log 12); what is
used is its remainder by the drive's cylinders. -/
opaque mendTarget : Nat → Nat

end Sys2Proof.Config
end

