-- ==== Sys2Proof/Machine/State.lean ====
section
/-! DEFINITION. Everything the part holds (R4, R5, R56, R59, R92, R103, R115, R143, R155, R161, R167 to
R171), as plain data, and its values after the reset line (R173).

The state is in three parts. `Front` holds what the host's commands, the intake and the timebase
change; `Engine` holds what the roster, the pair manager, the channels, the drive line unit, the survey
unit and the memory port change. The engine's operations read the front and never write it. Beside the
two stand the queue of commands and the bytes the part has written to host memory. -/

namespace Sys2Proof.Machine

/-! ### Codes (10.8) -/

/-- Controller states (R161). -/
inductive Ctl where
  | config | starting | run | draining | fault
deriving DecidableEq, Repr

/-- Order kinds (10.8, R12). -/
inductive Kind where
  | read | write | check | format | retire | seek | recalibrate | mend | lock | unlock | detach
deriving DecidableEq, Repr

/-- Retired policy of an order (R132). -/
inductive Policy where
  | take | skip | stop
deriving DecidableEq, Repr

/-- Finish codes (10.8). -/
inductive FinishCode where
  | ok | okOneSide | staleRead
  | badKind | badDrive | badRange | badBuffer | badDesk | deskFull | notPaired | notSingle | badStanding
  | noLock | pairSplit | pairBusy | late
  | notReady | mediumChanged | wrongVolume | writeProtected | sideAbsent | seekError | noTrack0
  | sectorNotFound | idCheck | dataCheck | verifyFailed | retiredFound | offSpeed | memoryError
  | withdrawn | aborted | stopped
deriving DecidableEq, Repr

/-- Outcomes of an action (R9). -/
inductive ActionOutcome where
  | taken | refused | notPosted | alreadyHeld | notHeld | notStanding | notRunning | badMask | badAction
deriving DecidableEq, Repr

/-- Configuration errors of a failed START (R163). -/
inductive ConfigErrorCode where
  | badBase | driveGeometry | trackOverfull | pairMismatch | pairRecord | splitImage
deriving DecidableEq, Repr

/-- Aux line functions (R147). -/
inductive AuxFunction where
  | none | doorLock | inUseLamp | twoSidedSense | changeSense
deriving DecidableEq, Repr

/-- Ready edge modes (R154). -/
inductive EdgeMode where
  | none | toReady | toNotReady | both
deriving DecidableEq, Repr

/-! ### Configuration taken at START -/

/-- A desk record as START took it (R23); the limit is the effective one. -/
structure Desk where
  enabled : Bool
  cls : Nat
  limit : Nat
deriving DecidableEq, Repr

/-- A drive record as START took it, timing fields clamped (R106, R164, 10.4). -/
structure DriveRecord where
  present : Bool
  debounce : Bool
  mfm : Bool
  sizeCode : Nat
  firstSector : Nat
  surfaces : Nat
  cylinders : Nat
  sectors : Nat
  aux : AuxFunction
  edge : EdgeMode
  step : Nat
  settle : Nat
  load : Nat
  unload : Nat
deriving DecidableEq, Repr

/-- A drive record that is not present, and the cleared table (R173). -/
def DriveRecord.absent : DriveRecord :=
  { present := false, debounce := false, mfm := false, sizeCode := 0, firstSector := 0, surfaces := 0,
    cylinders := 0, sectors := 0, aux := .none, edge := .none, step := 0, settle := 0, load := 0,
    unload := 0 }

/-- The configuration held from START to START (R165). -/
structure Tables where
  desks : List Desk
  drives : ByDrive DriveRecord
  overdue : Nat
  retry : Nat
deriving DecidableEq, Repr

/-- The cleared tables (R30, R173; log 38). -/
def Tables.cleared : Tables :=
  { desks := List.replicate 8 { enabled := false, cls := 0, limit := 0 },
    drives := BySide.allDrives DriveRecord.absent, overdue := 0, retry := 0 }

/-! ### The front -/

/-- Progress of a START (R163, R119). -/
inductive Starting where
  /-- No START in progress. -/
  | off
  /-- Waiting for both channels to enter STOPPED. -/
  | waiting
  /-- The reads of stage 2 have been issued. -/
  | reading
  /-- Stages 3 and 4 have passed on these tables, and the read of the image entries has been issued. -/
  | imaging (area : AreaData)
deriving DecidableEq, Repr

/-- What the intake has in hand (R7 to R10). The word is the action as written to ACTION. -/
inductive Intake where
  /-- Nothing in hand. -/
  | free
  /-- A POST whose slot read is in flight. -/
  | reading (w : Word)
  /-- A refusal or an immediate order whose DONE bit is still to be set. -/
  | closing (w : Word)
  /-- The last-action record is being written. -/
  | recording
  /-- A WITHDRAW has finished the order of a slot: its last-action record is on its way, and the DONE bit and
  the held counts of that finish are still to come. -/
  | finishing (slot : Nat)
deriving DecidableEq, Repr

/-- Edition phases (R94). -/
inductive Phase where
  | idle | far | near | closed
deriving DecidableEq, Repr

/-- The edition clock (R92). -/
structure Clock where
  remaining : Nat
  running : Bool
  phase : Phase
  window : Nat
deriving DecidableEq, Repr

/-- The edition clock after a reset (R92). -/
def Clock.reset : Clock := { remaining := 0, running := false, phase := .idle, window := 0 }

/-- What the host's commands, the intake, the timebase and the input pins change. `faultActive` says that
FAULT was entered from RUN or DRAINING, where the edition clock counts (R97, R99; log 43). -/
structure Front where
  ctl : Ctl
  resetLine : Bool
  starting : Starting
  tables : Tables
  areaBase : BitVec 12
  actionQ : List Word
  intake : Intake
  done : BitVec 32
  notify : BitVec 32
  enable : BitVec 8
  round : BitVec 6
  clock : Clock
  faultActive : Bool
  pins : ByDrive Lines
deriving DecidableEq, Repr

/-- No line active. -/
def noLines : Lines := { ready := false, trk0 := false, wprt := false, aux := false }

/-- The front after a reset, with the AREA BASE value and the input pins given (R173). -/
def Front.resetWith (base : BitVec 12) (pins : ByDrive Lines) : Front :=
  { ctl := .config, resetLine := false, starting := .off, tables := Tables.cleared, areaBase := base,
    actionQ := [], intake := .free, done := 0, notify := 0, enable := 0, round := 0,
    clock := Clock.reset, faultActive := false, pins := pins }

/-! ### The memory port -/

/-- The kind of a record request, which names its fault code (R172). -/
inductive RequestKind where
  | slotRead | slotWrite | areaRead | presetRead | headerWrite | configWrite | deskWrite | statusWrite
  | imageWrite
deriving DecidableEq, Repr

/-- Which finish a DONE bit belongs to, and what its setting does to the order (R24, R17, R19, R86). -/
inductive DoneHow where
  /-- The order is finished for good and leaves the list. -/
  | leaves
  /-- A standing order's run has ended and the order stays. -/
  | stays
  /-- A refusal: there is no held order. -/
  | refused
  /-- An immediate order: there is no held order. -/
  | immediate
deriving DecidableEq, Repr

/-- What a block is told when a request of its own completes (R171). -/
inductive Notice where
  | slotRead
  | startRead
  | presetRead
  | lastAction
  /-- A finish's phase write: the slot, its NOTIFY flag, what follows, and whether it is a LATE finish
  of a close. -/
  | doneBit (slot : Nat) (notify : Bool) (how : DoneHow) (late : Bool)
  | attention (d : Drive)
  | surveyDone
  | configError
deriving DecidableEq, Repr

/-- One word of a record request: its byte address, and the word written, or none for a read. -/
structure Access where
  addr : Nat
  data : Option Word
deriving DecidableEq, Repr

/-- A record request (R171). -/
structure Request where
  kind : RequestKind
  words : List Access
  notice : Option Notice
deriving DecidableEq, Repr

/-- The access on the bus (R171). -/
inductive BusAccess where
  /-- The record request at the head of the record queue. -/
  | record
  /-- One word of a channel's transfer. -/
  | word (c : Side)
deriving DecidableEq, Repr

/-- The memory port (R171). -/
structure Port where
  queue : List Request
  notices : List Notice
  inProgress : Option BusAccess
  lastWord : Side
deriving DecidableEq, Repr

/-- The port after a reset. The channel last served is DESIGN CHOICE (log 9). -/
def Port.reset : Port := { queue := [], notices := [], inProgress := none, lastWord := .B }

/-! ### Orders -/

/-- The fields copied from a slot (R5, 10.7). -/
structure OrderFields where
  kind : Kind
  desk : Nat
  drive : Drive
  pairCopy : Bool
  policy : Policy
  notify : Bool
  rush : Bool
  drop : Bool
  verify : Bool
  standing : Bool
  changedOnly : Bool
  cylinder : Nat
  surface : Nat
  firstSector : Nat
  count : Nat
  volume : Byte
  fill : Byte
  buffer : Nat
  roundMask : BitVec 6
  roundValue : BitVec 6
deriving DecidableEq, Repr

/-- Roster states (R2). -/
inductive RosterState where
  | queued | boundWait | running | waitingRound
deriving DecidableEq, Repr

/-- One side's progress at one sector (R5): `copying` is read good and on its way to memory, `written`
is written and not yet verified. -/
inductive Entry where
  | notBegun
  | copying
  | written
  | done
  | failed (code : FinishCode)
deriving DecidableEq, Repr

/-- A place on a drive. -/
structure Place where
  cylinder : Nat
  surface : Nat
  sector : Nat
deriving DecidableEq, Repr

/-- A MEND turn: its track, counted from cylinder 0 surface 0, and its set of sectors, each with the
side that is read (R75). -/
structure Turn where
  track : Nat
  set : List (Nat × Side)
deriving DecidableEq, Repr

/-- A held order's record (R5). -/
structure Order where
  slot : Nat
  fields : OrderFields
  state : RosterState
  age : Nat
  /-- Generation at acceptance of each covered drive. -/
  generation : BySide (Option (BitVec 8))
  progress : BySide (List Entry)
  withdrawMark : Option FinishCode
  changed : Bool
  sectorsDone : Nat
  retries : Nat
  missed : Nat
  retiredMet : Nat
  logged : Nat
  runs : Nat
  missedRounds : Nat
  served : BySide Bool
  roomNote : Bool
  stale : Bool
  /-- Pending finish code and its place (R67). -/
  pendingCode : Option (FinishCode × Place)
  /-- A medium change has stopped the run (R27). -/
  changedMedium : Bool
  /-- The sides of the run plan fixed at the grant (R34). -/
  plan : BySide Bool
  /-- The run is a mirrored one, on an ATTACHED pair (R58). -/
  mirrored : Bool
  /-- The channel bound while the order is BOUND-WAIT (R50). -/
  waiter : Option Side
  /-- The code a side failed with as a whole (R65). -/
  sideFailure : BySide (Option FinishCode)
  /-- Of the run granted, one entry a sector: the pair manager has resolved it (R63). -/
  resolved : List Bool
  reservation : Nat
  /-- The finish decided, while its writes are on their way (R4). -/
  finish : Option FinishCode
  /-- A MEND's copy cursor, as a track (R78). -/
  cursor : Option Nat
  /-- A MEND's turn in hand (R75). -/
  turn : Option Turn
deriving DecidableEq, Repr

/-! ### The pair manager -/

/-- Modes of a pair (R56). -/
inductive PairMode where
  | attached | detached
deriving DecidableEq, Repr

/-- A pair record (R56). -/
structure PairRecord where
  bound : Bool
  mode : PairMode
  kept : Side
  lost : Nat
deriving DecidableEq, Repr

/-- A pair record after a reset (R56). -/
def PairRecord.reset : PairRecord := { bound := false, mode := .attached, kept := .A, lost := 0 }

/-- A split log entry (R59). -/
structure LogEntry where
  pair : PairId
  good : Side
  place : Place
  origin : Nat
  originKind : Kind
deriving DecidableEq, Repr

/-! ### The channels -/

/-- Channel states (R102). -/
inductive ChannelState where
  | idle | partnerWait | positioning | trackPass | verifyPass | surveyStep | stopped
deriving DecidableEq, Repr

/-- What a positioning is for (R107, R113, R139). -/
inductive PosWhy where
  /-- In advance, in PARTNER_WAIT. -/
  | early
  /-- The start of a side's run. -/
  | start
  /-- The next track of the order, on another cylinder. -/
  | next
  /-- The recovery of the retry ladder. -/
  | recover
deriving DecidableEq, Repr

/-- A positioning in hand (R107). -/
structure Positioning where
  why : PosWhy
  target : Nat
  surface : Nat
  /-- Outward steps given by the recalibrate in hand. -/
  steps : Nat
  /-- At least one step was taken. -/
  stepped : Bool
  /-- The confirm has been made once and differed. -/
  again : Bool
deriving DecidableEq, Repr

/-- No positioning. -/
def Positioning.none : Positioning :=
  { why := .start, target := 0, surface := 0, steps := 0, stepped := false, again := false }

/-- The state of one sector of the track in hand. -/
inductive ItemState where
  /-- Sought: to be read, checked or written. -/
  | wanted
  /-- Read good, its copy to memory under way. -/
  | copying
  /-- A MEND read held in a buffer, not yet passed across. -/
  | holding
  /-- A MEND read passed across. -/
  | passed
  /-- Written, to be read back. -/
  | written
  /-- Done. -/
  | good
  /-- Failed after the ladder. -/
  | failed
  /-- Withdrawn from the wanted set (R66). -/
  | withdrawn
deriving DecidableEq, Repr

/-- One sector of the track in hand (R128, R138): its position in the order (or on the track, for a
MEND), whether it is to be written, its failed attempts, and the index pulses and bad IDs met since its
search began. -/
structure Item where
  pos : Nat
  sector : Nat
  write : Bool
  st : ItemState
  tries : Nat
  pulses : Nat
  badId : Bool
  /-- The mark written, which the read-back must show. -/
  mark : Byte
deriving DecidableEq, Repr

/-- The track in hand and the side's tests (R127, R128). -/
structure Run where
  track : Nat
  /-- The pass left for a recovery, or in hand, is a verify pass. -/
  verify : Bool
  items : List Item
  /-- Sector number of the last recognised ID field. -/
  lastId : Option Nat
  /-- Volume of the first ID field recognised in this run. -/
  firstId : Option Byte
  /-- The volume test has been made, or is not needed. -/
  volumeTested : Bool
  /-- Failed attempts of a FORMAT on the track (R139). -/
  trackTries : Nat
deriving DecidableEq, Repr

/-- No track in hand. -/
def Run.none : Run :=
  { track := 0, verify := false, items := [], lastId := Option.none, firstId := Option.none,
    volumeTested := false, trackTries := 0 }

/-- Stages of a survey step (R158). -/
inductive SurveyStage where
  | waitIndex | waitRevolution | over
deriving DecidableEq, Repr

/-- What a channel is doing. -/
inductive Act where
  | none
  /-- Driving the select line, before the selection sample is settled (R104). -/
  | selecting
  /-- A step and its step time (R108 when recalibrating, else R109). -/
  | stepping (recalibrate : Bool)
  | settling
  | loading
  /-- Waiting for an ID field, with the index pulses counted (R111). -/
  | confirming (pulses : Nat)
  /-- Positioned, or failed, in PARTNER_WAIT (R113). -/
  | holding
  /-- In a pass, waiting for a sector to arrive. -/
  | seeking
  /-- Reading the data field of the sector at `pos` into a buffer, with the index pulses since the
  match; `write` says that the sector belongs to the write set (a read-back). -/
  | reading (pos : Nat) (write : Bool) (buf : Side) (pulses : Nat)
  /-- Writing the data field of the sector at `pos`, from a buffer where it has one. -/
  | writing (pos : Nat) (buf : Option Side)
  /-- FORMAT, waiting for the index (R135). -/
  | awaitIndex
  /-- Writing a FORMAT track; `past` when the index has passed before the planned bytes (R125). -/
  | formatting (past : Bool)
  /-- A survey step, with the ready samples taken since the selection. -/
  | surveying (stage : SurveyStage) (samples : Nat)
  /-- The side's end is being worked out. -/
  | ending
deriving DecidableEq, Repr

/-- What a sector buffer holds (R129, R130, R76). The number is the sector's position. -/
inductive BufferUse where
  | free
  | reading
  | copying (pos : Nat)
  | fetching (pos : Nat)
  | ready (pos : Nat) (mark : Byte)
  | holding (pos : Nat) (mark : Byte)
deriving DecidableEq, Repr

/-- A sector buffer (R103). -/
structure SectorBuffer where
  use : BufferUse
  data : List Byte
deriving DecidableEq, Repr

/-- A word-by-word transfer between a buffer and host memory (R129, R130). -/
structure Transfer where
  buf : Side
  /-- To host memory (a READ sector's copy), else from it (a WRITE sector's fetch). -/
  toHost : Bool
  pos : Nat
  addr : Nat
  words : Nat
  moved : Nat
deriving DecidableEq, Repr

/-- An unload touch (R115): `first` when the channel makes it before it chooses. -/
structure Touch where
  pair : PairId
  first : Bool
deriving DecidableEq, Repr

/-- What begins when an unload touch ends (R115). -/
inductive Begin where
  | positioning | partnerWait | surveyStep
deriving DecidableEq, Repr

/-- A claim on its way to the roster (R32, R48): the slot of the order it names, and whether that order is still
held. An order that has left the list stays gone for the claim, whatever order its slot is given to since. -/
structure Claim where
  slot : Nat
  held : Bool
deriving DecidableEq, Repr

/-- A channel (R103, R105). The two buffers are named like the sides: `A` the first, `B` the second. -/
structure Channel where
  state : ChannelState
  selected : Option PairId
  lastSelected : Option PairId
  order : Option Nat
  claim : Option Claim
  buffers : BySide SectorBuffer
  lastBuffer : Side
  transfers : List Transfer
  run : Run
  positioning : Positioning
  act : Act
  /-- The selection for the order recorded no medium change, and in POSITIONING found the drive READY (R104,
  R114). -/
  selectedWell : Bool
  /-- A stop has been asked (R116). -/
  stopping : Bool
  heldFailure : Option FinishCode
  touch : Option Touch
  deferred : Option Begin
  dirInward : Bool
  headLoad : Bool
  surfaceOne : Bool
  writeGate : Bool
  /-- The bytes driven on WDATA while the write gate is up. -/
  writeData : List Byte
deriving DecidableEq, Repr

/-- An empty buffer. -/
def SectorBuffer.empty : SectorBuffer := { use := .free, data := [] }

/-- A channel after a reset, with its buffers' bytes as they were (R103, R120; log 20). -/
def Channel.resetWith (buffers : BySide SectorBuffer) : Channel :=
  { state := .stopped, selected := none, lastSelected := none, order := none, claim := none,
    buffers := ⟨{ buffers.a with use := .free }, { buffers.b with use := .free }⟩, lastBuffer := .B,
    transfers := [], run := Run.none, positioning := Positioning.none, act := .none,
    selectedWell := false, stopping := false, heldFailure := none, touch := none, deferred := none,
    dirInward := false, headLoad := false, surfaceOne := false, writeGate := false, writeData := [] }

/-- Head unload timers (R115). -/
inductive Timer where
  | stopped
  | running (count : Nat)
  | pending
deriving DecidableEq, Repr

/-! ### The drive line unit -/

/-- Knowledge states (R143). -/
inductive DriveState where
  | unconfigured | unknown | ready | notReady | offSpeed
deriving DecidableEq, Repr

/-- A knowledge record (R143), with the output latch (R147), the last sample (R146) and whether a
period is being timed (R150). -/
structure Knowledge where
  state : DriveState
  cylinder : Option Nat
  generation : BitVec 8
  loaded : Bool
  writeProtected : Bool
  track0 : Bool
  twoSided : Bool
  aux : Bool
  held : Option Bool
  sampleRun : Nat
  lastSample : Option Bool
  outCount : Nat
  inCount : Nat
  period : Nat
  timing : Bool
  lastVolume : Byte
  mountHold : Bool
  heldCount : Nat
  surveyRound : Option (BitVec 6)
  latch : Bool
deriving DecidableEq, Repr

/-- A knowledge record after a reset (R143). -/
def Knowledge.reset : Knowledge :=
  { state := .unknown, cylinder := none, generation := 0, loaded := false, writeProtected := false,
    track0 := false, twoSided := false, aux := false, held := none, sampleRun := 0, lastSample := none,
    outCount := 0, inCount := 0, period := 0, timing := false, lastVolume := 0, mountHold := false,
    heldCount := 0, surveyRound := none, latch := false }

/-! ### The survey unit -/

/-- Survey modes (R155). -/
inductive SurveyMode where
  | off | once | loop
deriving DecidableEq, Repr

/-- The survey unit (R155). `step` is the step in hand of the survey under way; `orphans` are the steps, one
a channel at most, that were in hand when their survey was ended and run on (R159). -/
structure Survey where
  mode : SurveyMode
  mask : ByDrive Bool
  request : Option (SurveyMode × ByDrive Bool)
  next : Option Drive
  waiting : Nat
  step : Option Drive
  orphans : BySide (Option Drive)
deriving DecidableEq, Repr

/-- The survey unit after a reset (R155). -/
def Survey.reset : Survey :=
  { mode := .off, mask := BySide.allDrives false, request := none, next := none, waiting := 0,
    step := none, orphans := BySide.both none }

/-! ### The engine and the whole state -/

/-- What the roster, the pair manager, the channels, the drive line unit, the survey unit and the
memory port change. -/
structure Engine where
  port : Port
  attention : BitVec 10
  held : List Order
  deskHeld : List Nat
  closes : List Nat
  pairs : ByPair PairRecord
  log : List LogEntry
  reserved : Nat
  channels : BySide Channel
  timers : ByDrive Timer
  drives : ByDrive Knowledge
  report : ByDrive Bool
  survey : Survey
  freeIndex : Nat
deriving DecidableEq, Repr

/-- The engine after a reset, with the buffers' bytes and the free-value index as they were (R173). -/
def Engine.resetWith (a b : BySide SectorBuffer) (freeIndex : Nat) : Engine :=
  { port := Port.reset, attention := 0, held := [], deskHeld := List.replicate 8 0, closes := [],
    pairs := ⟨PairRecord.reset, PairRecord.reset⟩, log := [], reserved := 0,
    channels := ⟨Channel.resetWith a, Channel.resetWith b⟩, timers := BySide.allDrives .stopped,
    drives := BySide.allDrives Knowledge.reset, report := BySide.allDrives false,
    survey := Survey.reset, freeIndex := freeIndex }

/-- The whole state. `pending` is the queue of commands, first in, first out. `mem` lists the bytes of
host memory that the part has written, addresses strictly rising; an address that is not listed has not
been written by the part (log 1). -/
structure State where
  pending : List Instr
  front : Front
  engine : Engine
  mem : List Host.Cell
deriving DecidableEq, Repr

/-- The part after the reset line has been released (R173). The buffers' bytes (R103) and the pins are
DESIGN CHOICE (log 10, log 11). -/
def State.reset : State :=
  { pending := [], front := Front.resetWith 0 (BySide.allDrives noLines),
    engine := Engine.resetWith (BySide.both SectorBuffer.empty) (BySide.both SectorBuffer.empty) 0,
    mem := [] }

/-- Why a step could stop with a fault. The spec names no condition in which the part stops: a bus error
leads to the controller state FAULT or to a finish code, each a next state. -/
inductive Fault where
  /-- Raised by no meaning; safe, since nothing reaches it. -/
  | unreached
deriving DecidableEq, Repr

/-- Why a step could be refused. -/
inductive Refusal where
  /-- A row of the table without a meaning, raised by `exec` alone; safe, since the run stops. No arm
  raises it now. -/
  | notModelled (mnemonic : String)
deriving DecidableEq, Repr

end Sys2Proof.Machine
end

