-- ==== Sys2Proof/Machine/Codes.lean ====
section
/-! DEFINITION. The numeric codes of 10.8 and the classes of codes and kinds that the rules use. -/

namespace Sys2Proof.Machine

def Ctl.code : Ctl → Nat
  | .config => 0
  | .starting => 1
  | .run => 2
  | .draining => 3
  | .fault => 4

def Kind.code : Kind → Nat
  | .read => 1
  | .write => 2
  | .check => 3
  | .format => 4
  | .retire => 5
  | .seek => 6
  | .recalibrate => 7
  | .mend => 8
  | .lock => 9
  | .unlock => 10
  | .detach => 11

/-- The kind of a code, where the code is 1 to 11 (R11 check 1). -/
def kindOf? : Nat → Option Kind
  | 1 => some .read
  | 2 => some .write
  | 3 => some .check
  | 4 => some .format
  | 5 => some .retire
  | 6 => some .seek
  | 7 => some .recalibrate
  | 8 => some .mend
  | 9 => some .lock
  | 10 => some .unlock
  | 11 => some .detach
  | _ => none

/-- The retired policy of a code; 3 is none (10.7). -/
def policyOf? : Nat → Option Policy
  | 0 => some .take
  | 1 => some .skip
  | 2 => some .stop
  | _ => none

def FinishCode.code : FinishCode → Nat
  | .ok => 0x00
  | .okOneSide => 0x01
  | .staleRead => 0x02
  | .badKind => 0x10
  | .badDrive => 0x11
  | .badRange => 0x12
  | .badBuffer => 0x13
  | .badDesk => 0x14
  | .deskFull => 0x15
  | .notPaired => 0x16
  | .notSingle => 0x17
  | .badStanding => 0x18
  | .noLock => 0x19
  | .pairSplit => 0x1A
  | .pairBusy => 0x1B
  | .late => 0x1C
  | .notReady => 0x20
  | .mediumChanged => 0x21
  | .wrongVolume => 0x22
  | .writeProtected => 0x23
  | .sideAbsent => 0x24
  | .seekError => 0x25
  | .noTrack0 => 0x26
  | .sectorNotFound => 0x27
  | .idCheck => 0x28
  | .dataCheck => 0x29
  | .verifyFailed => 0x2A
  | .retiredFound => 0x2B
  | .offSpeed => 0x2C
  | .memoryError => 0x2D
  | .withdrawn => 0x2E
  | .aborted => 0x2F
  | .stopped => 0x30

def ActionOutcome.code : ActionOutcome → Nat
  | .taken => 0
  | .refused => 1
  | .notPosted => 2
  | .alreadyHeld => 3
  | .notHeld => 4
  | .notStanding => 5
  | .notRunning => 6
  | .badMask => 7
  | .badAction => 8

def ConfigErrorCode.code : ConfigErrorCode → Nat
  | .badBase => 1
  | .driveGeometry => 2
  | .trackOverfull => 3
  | .pairMismatch => 4
  | .pairRecord => 5
  | .splitImage => 6

/-- The fault code that names a failed request (R172). -/
def RequestKind.faultCode : RequestKind → Nat
  | .slotRead => 1
  | .slotWrite => 2
  | .areaRead => 3
  | .presetRead => 4
  | .headerWrite => 5
  | .configWrite => 6
  | .deskWrite => 7
  | .statusWrite => 8
  | .imageWrite => 9

def ChannelState.code : ChannelState → Nat
  | .idle => 0
  | .partnerWait => 1
  | .positioning => 2
  | .trackPass => 3
  | .verifyPass => 4
  | .surveyStep => 5
  | .stopped => 6

def Phase.code : Phase → Nat
  | .idle => 0
  | .far => 1
  | .near => 2
  | .closed => 3

def SurveyMode.code : SurveyMode → Nat
  | .off => 0
  | .once => 1
  | .loop => 2

def DriveState.code : DriveState → Nat
  | .unconfigured => 0
  | .unknown => 1
  | .ready => 2
  | .notReady => 3
  | .offSpeed => 4

def PairMode.code : PairMode → Nat
  | .attached => 0
  | .detached => 1

def sideCode : Side → Nat
  | .A => 0
  | .B => 1

/-- Slot phases (R1). -/
def phaseFree : Nat := 0
def phasePosted : Nat := 1
def phaseQueued : Nat := 2
def phaseRunning : Nat := 3
def phaseStanding : Nat := 4
def phaseFinished : Nat := 5

/-- The served side field: NONE, A, B or BOTH (10.7). -/
def servedCode (s : BySide Bool) : Nat :=
  (if s.a then 1 else 0) + (if s.b then 2 else 0)

/-- The aux function of a code (10.4). -/
def auxOf? : Nat → Option AuxFunction
  | 0 => some .none
  | 1 => some .doorLock
  | 2 => some .inUseLamp
  | 3 => some .twoSidedSense
  | 4 => some .changeSense
  | _ => none

/-- The ready edge mode of a code (10.4). -/
def edgeOf? : Nat → Option EdgeMode
  | 0 => some .none
  | 1 => some .toReady
  | 2 => some .toNotReady
  | 3 => some .both
  | _ => none

/-- The writing kinds of check 5 and R105: WRITE, FORMAT and RETIRE. A MEND writes on one side of a
sector and is treated apart. -/
def Kind.writes : Kind → Bool
  | .write => true
  | .format => true
  | .retire => true
  | _ => false

/-- The kinds that load the head (R107). -/
def Kind.loadsHead : Kind → Bool
  | .read => true
  | .write => true
  | .check => true
  | .format => true
  | .retire => true
  | .mend => true
  | _ => false

/-- The kinds whose sectors are a run from the first sector on (R13, R38). -/
def Kind.hasRun : Kind → Bool
  | .read => true
  | .write => true
  | .check => true
  | .retire => true
  | _ => false

/-- The immediate kinds (R19). -/
def Kind.immediate : Kind → Bool
  | .lock => true
  | .unlock => true
  | .detach => true
  | _ => false

/-- The codes of a sector that could not be served, which carry a fail location (R25). -/
def FinishCode.isMedia : FinishCode → Bool
  | .sectorNotFound => true
  | .idCheck => true
  | .dataCheck => true
  | .verifyFailed => true
  | .retiredFound => true
  | _ => false

/-- The codes that end a standing order (R87). -/
def FinishCode.endsStanding : FinishCode → Bool
  | .mediumChanged => true
  | .withdrawn => true
  | .aborted => true
  | .stopped => true
  | .late => true
  | _ => false

end Sys2Proof.Machine
end

