-- ==== Sys2Proof/Machine/Format.lean ====
section
/-! DEFINITION. The recording format: marks, check word, fields, track fit and the bytes of a FORMAT
track (R121 to R125, 10.10). -/

namespace Sys2Proof.Machine

/-- The three marks (R122). -/
def idMark : Byte := 0x3C
def dataMark : Byte := 0x35
def retiredMark : Byte := 0x36

/-- The run of sync bytes that a mark must follow to be recognised (R122). -/
def syncNeeded (mfm : Bool) : Nat := if mfm then 8 else 4

/-- An ID mark is recognised: it follows a long enough run of sync bytes (R122). -/
def hearsIdMark (mfm : Bool) (f : FieldRead) : Bool :=
  decide (syncNeeded mfm ≤ f.sync) && f.bytes.head? == some idMark

/-- A DATA or RETIRED mark is recognised: it follows a long enough run of sync bytes (R122). -/
def hearsDataMark (mfm : Bool) (f : FieldRead) : Bool :=
  decide (syncNeeded mfm ≤ f.sync) &&
    (f.bytes.head? == some dataMark || f.bytes.head? == some retiredMark)

/-- Gap and sync bytes (R121). -/
def gapByte : Byte := 0x5A
def syncByte : Byte := 0x00

/-- One bit of the check-word register under x^16 + x^12 + x^5 + 1 (R123). -/
def crcShift (r : Word) : Word :=
  if r.msb then (r <<< 1) ^^^ 0x1021 else r <<< 1

/-- One byte of the check-word register, most significant bit first (R123). -/
def crcByte (r : Word) (b : Byte) : Word :=
  crcShift (crcShift (crcShift (crcShift (crcShift (crcShift (crcShift (crcShift
    (r ^^^ (b.setWidth 16 <<< 8)))))))))

/-- The check word of a field's bytes, mark included; the register starts at all ones (R123). -/
def checkWord (bytes : List Byte) : Word := bytes.foldl crcByte 0xFFFF

/-- A field with its check word after it, high-order byte first (R123). -/
def withCheck (bytes : List Byte) : List Byte :=
  bytes ++ [(checkWord bytes >>> 8).setWidth 8, (checkWord bytes).setWidth 8]

/-- A field read with its check word is good when the register then holds zero (R123). -/
def fieldGood (bytes : List Byte) : Bool := checkWord bytes == 0

/-- Data bytes of a sector by size code (R121). -/
def sizeBytes (code : Nat) : Nat := 128 * 2 ^ code

/-- Sector size of a drive. -/
def DriveRecord.size (r : DriveRecord) : Nat := sizeBytes r.sizeCode

/-- The parts of a track whose lengths depend on the density (R121). -/
def preambleLength (mfm : Bool) : Nat := if mfm then 160 else 80
def syncLength (mfm : Bool) : Nat := if mfm then 12 else 6
def innerGapLength (mfm : Bool) : Nat := if mfm then 22 else 11
def outerGapLength (mfm : Bool) : Nat := if mfm then 35 else 12
/-- A sector's overhead (R121). -/
def overhead (mfm : Bool) : Nat := if mfm then 92 else 46
/-- The capacity of one revolution at nominal speed (R121). -/
def capacity (mfm : Bool) : Nat := if mfm then 10400 else 5200

/-- The need of a track (R124). -/
def trackNeed (mfm : Bool) (sectors size : Nat) : Nat :=
  preambleLength mfm + sectors * (size + overhead mfm)

/-- The record fits (R124). -/
def trackFits (mfm : Bool) (sectors size : Nat) : Bool :=
  decide (trackNeed mfm sectors size ≤ capacity mfm)

/-- Room left over on a track (R125). -/
def trackSlack (r : DriveRecord) : Nat := capacity r.mfm - trackNeed r.mfm r.sectors r.size

/-- Extra gap bytes of each sector (R125). -/
def trackExtra (r : DriveRecord) : Nat := min 32 (trackSlack r / r.sectors)

/-- Nominal final fill (R125). -/
def finalFill (r : DriveRecord) : Nat := trackSlack r - r.sectors * trackExtra r

/-- An ID field with its check word (R122, 10.10). -/
def idField (volume : Byte) (cylinder surface sector sizeCode : Nat) : List Byte :=
  withCheck [idMark, volume, BitVec.ofNat 8 cylinder, BitVec.ofNat 8 surface, BitVec.ofNat 8 sector,
    BitVec.ofNat 8 sizeCode]

/-- A data field with its check word (R122, 10.10). -/
def dataField (mark : Byte) (data : List Byte) : List Byte := withCheck (mark :: data)

/-- What a channel writes for one data field: sync run, field, one gap byte (R134). -/
def dataFieldStream (mfm : Bool) (mark : Byte) (data : List Byte) : List Byte :=
  List.replicate (syncLength mfm) syncByte ++ dataField mark data ++ [gapByte]

/-- One sector of a FORMAT track (R121, R135). -/
def formatSector (r : DriveRecord) (volume fill : Byte) (cylinder surface sector : Nat) : List Byte :=
  List.replicate (syncLength r.mfm) syncByte ++ idField volume cylinder surface sector r.sizeCode ++
  List.replicate (innerGapLength r.mfm) gapByte ++ List.replicate (syncLength r.mfm) syncByte ++
  dataField dataMark (List.replicate r.size fill) ++
  List.replicate (outerGapLength r.mfm + trackExtra r) gapByte

/-- The planned bytes of a FORMAT track, nominal final fill included (R121, R125, R135). -/
def formatTrack (r : DriveRecord) (volume fill : Byte) (cylinder surface : Nat) : List Byte :=
  List.replicate (preambleLength r.mfm) gapByte ++
  ((List.range r.sectors).map fun k =>
    formatSector r volume fill cylinder surface (r.firstSector + k)).flatten ++
  List.replicate (finalFill r) gapByte

/-- An ID field as recognised (R126): the eight bytes carry the ID mark and a good check word. -/
def idRecognised (bytes : List Byte) : Bool :=
  bytes.length == 8 && bytes.head? == some idMark && fieldGood bytes

/-- Byte `k` of a field as a number. -/
def fieldByte (bytes : List Byte) (k : Nat) : Nat := (bytes.getD k 0).toNat

end Sys2Proof.Machine
end

