-- ==== Sys2Proof/Machine/Ops.lean ====
section
/-! DEFINITION. The named operations every meaning is built from: the bytes the part writes to host
memory, the memory port (R171), the record writes of R174, and the updates of one channel, drive or
order. An operation on `Engine` takes the `Front` it reads as `x`. -/

namespace Sys2Proof.Machine

/-! ### Host memory as the part has written it -/

/-- The byte the part has last written at an address, if it has written there. -/
def memRead : List Host.Cell → Nat → Option Byte
  | [], _ => none
  | (k, v) :: rest, a => if k = a then some v else memRead rest a

/-- Write one byte, keeping the addresses strictly rising. -/
def memWrite : List Host.Cell → Nat → Byte → List Host.Cell
  | [], a, b => [(a, b)]
  | (k, v) :: rest, a, b =>
    if a < k then (a, b) :: (k, v) :: rest
    else if a = k then (a, b) :: rest
    else (k, v) :: memWrite rest a b

/-- The canonical form: addresses strictly rising from the bound on, all inside the host's memory. -/
def memWfFrom : Nat → List Host.Cell → Bool
  | _, [] => true
  | lo, (k, _) :: rest => decide (lo ≤ k) && decide (k < Config.hostBytes) && memWfFrom (k + 1) rest

/-- The canonical form of the memory (log 1). -/
def memWf (m : List Host.Cell) : Bool := memWfFrom 0 m

/-- The 20-bit address the port drives (Conventions, Numbers and words). -/
def busAddress (a : Nat) : Nat := a % Config.hostBytes

/-- Write one word, low-order byte at the lower address (Conventions, Numbers and words). -/
def memWriteWord (m : List Host.Cell) (a : Nat) (w : Word) : List Host.Cell :=
  memWrite (memWrite m (busAddress a) (w.setWidth 8)) (busAddress (a + 1)) ((w >>> 8).setWidth 8)

/-- One word of a record request: a write lands, a read leaves memory as it is. -/
def memAccess (m : List Host.Cell) (w : Access) : List Host.Cell :=
  match w.data with
  | some v => memWriteWord m w.addr v
  | none => m

/-- The words of a request, in address order (R171). -/
def memAccesses (m : List Host.Cell) (ws : List Access) : List Host.Cell := ws.foldl memAccess m

/-! ### Updates of one part of the engine -/

def Engine.chan (e : Engine) (c : Side) : Channel := e.channels.get c

def Engine.setChan (e : Engine) (c : Side) (v : Channel) : Engine :=
  { e with channels := e.channels.set c v }

def Engine.updChan (e : Engine) (c : Side) (f : Channel → Channel) : Engine :=
  e.setChan c (f (e.chan c))

def Engine.drive (e : Engine) (d : Drive) : Knowledge := e.drives.drive d

def Engine.setDrive (e : Engine) (d : Drive) (k : Knowledge) : Engine :=
  { e with drives := e.drives.setDrive d k }

def Engine.setTimer (e : Engine) (d : Drive) (t : Timer) : Engine :=
  { e with timers := e.timers.setDrive d t }

/-- The held order of a slot (R4: at most one per slot). -/
def Engine.order? (e : Engine) (slot : Nat) : Option Order := e.held.find? (fun o => o.slot == slot)

/-- Change the held order of a slot, keeping its place in post order. -/
def Engine.updOrder (e : Engine) (slot : Nat) (f : Order → Order) : Engine :=
  { e with held := e.held.map fun o => if o.slot == slot then f o else o }

/-- Move the held order of a slot to the tail of the list (R4). -/
def Engine.toTail (e : Engine) (slot : Nat) : Engine :=
  { e with held := e.held.filter (fun o => !(o.slot == slot)) ++ e.held.filter (fun o => o.slot == slot) }

/-- The held order a channel has in hand. -/
def Engine.orderOf? (e : Engine) (c : Side) : Option Order :=
  (e.chan c).order.bind e.order?

/-! ### The record queue (R171) -/

/-- A block issues a record request: it joins the record queue's tail. See log 7. -/
def Engine.issue (e : Engine) (kind : RequestKind) (words : List Access) (notice : Option Notice) : Engine :=
  { e with port := { e.port with queue := e.port.queue ++ [{ kind := kind, words := words, notice := notice }] } }

/-- Byte address of an offset in the communication area (R167, 10.1). -/
def Front.area (x : Front) (offset : Nat) : Nat := x.areaBase.toNat * 256 + offset

/-- Offsets of the records of the area (10.1). -/
def configOffset : Nat := 0x040
def deskOffset (d : Nat) : Nat := 0x080 + 8 * d
def driveOffset (d : Drive) : Nat := 0x0C0 + 16 * d.number
def statusOffset (d : Drive) : Nat := 0x100 + 16 * d.number
def imageOffset (p : Nat) : Nat := 0x140 + 8 * p
def slotOffset (s : Nat) : Nat := 0x240 + 32 * s

/-- Words written at offsets of the area. -/
def areaWords (x : Front) (ws : List (Nat × Word)) : List Access :=
  ws.map fun p => { addr := x.area p.1, data := some p.2 }

/-- Words read from `n` consecutive word offsets of the area. The addresses are fixed when the request is
issued, so a read still queued keeps the AREA BASE it was issued under (R95, R167; log 55). -/
def areaReads (x : Front) (offset n : Nat) : List Access :=
  (List.range n).map fun k => { addr := x.area (offset + 2 * k), data := none }

/-- A header write (R174). -/
def Engine.headerWrite (x : Front) (e : Engine) (ws : List (Nat × Word)) (notice : Option Notice) : Engine :=
  e.issue .headerWrite (areaWords x ws) notice

/-- The controller state write (R161, R174). -/
def Engine.writeCtl (x : Front) (e : Engine) (c : Ctl) : Engine :=
  e.headerWrite x [(0x00, BitVec.ofNat 16 c.code)] none

/-- The slot a channel's running-slot field shows (R102). -/
def Channel.shownSlot (ch : Channel) : Nat :=
  match ch.state with
  | .idle => 0xFF
  | .surveyStep => 0xFF
  | .stopped => 0xFF
  | .partnerWait => ch.order.getD 0xFF
  | .positioning => ch.order.getD 0xFF
  | .trackPass => ch.order.getD 0xFF
  | .verifyPass => ch.order.getD 0xFF

/-- Header offset of a channel's field (10.2). -/
def channelOffset : Side → Nat
  | .A => 0x18
  | .B => 0x1A

/-- A channel's state and running slot as a word (10.2). -/
def Channel.word (ch : Channel) : Word := lohi ch.state.code ch.shownSlot

/-- A channel enters a state and writes it into the header, where it is a change (R102). -/
def Engine.enter (x : Front) (e : Engine) (c : Side) (st : ChannelState) : Engine :=
  if (e.chan c).state = st then e
  else
    let e := e.updChan c fun ch => { ch with state := st }
    e.headerWrite x [(channelOffset c, (e.chan c).word)] none

/-- The edition fields (R92, R174). -/
def Clock.words (k : Clock) : List (Nat × Word) :=
  [(0x12, BitVec.ofNat 16 k.remaining), (0x14, lohi k.phase.code (if k.running then 1 else 0))]

/-- The timebase writes the edition fields (R92). -/
def Engine.writeClock (x : Front) (e : Engine) : Engine := e.headerWrite x x.clock.words none

/-- A set of drives as four bits. -/
def maskNat (m : ByDrive Bool) : Nat :=
  (Drive.all.map fun d => if m.drive d then 2 ^ d.number else 0).sum

/-- The survey fields as a word (10.2). -/
def Survey.word (v : Survey) : Word :=
  match v.request with
  | none => BitVec.ofNat 16 (v.mode.code + 16 * maskNat v.mask)
  | some (m, k) =>
    BitVec.ofNat 16 (v.mode.code + 16 * maskNat v.mask + 256 * maskNat k + 4096 * m.code)

/-- The survey unit writes its fields (R155). -/
def Engine.writeSurvey (x : Front) (e : Engine) : Engine :=
  e.headerWrite x [(0x1E, e.survey.word)] none

/-- The held orders total (R6). -/
def Engine.writeTotal (x : Front) (e : Engine) : Engine :=
  e.headerWrite x [(0x1C, BitVec.ofNat 16 e.held.length)] none

/-- A desk's held count (R6). -/
def Engine.writeDesk (x : Front) (e : Engine) (desk : Nat) : Engine :=
  e.issue .deskWrite (areaWords x [(deskOffset desk + 6, BitVec.ofNat 16 (e.deskHeld.getD desk 0))]) none

/-- The reserved total alone (R61). -/
def Engine.writeReserved (x : Front) (e : Engine) : Engine :=
  e.headerWrite x [(0x22, BitVec.ofNat 16 e.reserved)] none

/-- The log counts (R61). -/
def Engine.writeCounts (x : Front) (e : Engine) : Engine :=
  e.headerWrite x [(0x20, BitVec.ofNat 16 e.log.length), (0x22, BitVec.ofNat 16 e.reserved)] none

/-- The split log length (R61). -/
def Engine.writeLogLength (x : Front) (e : Engine) : Engine :=
  e.issue .configWrite (areaWords x [(configOffset + 0x10, BitVec.ofNat 16 e.log.length)]) none

/-- The pair write-back (R56). -/
def Engine.writePair (x : Front) (e : Engine) (p : PairId) : Engine :=
  let r := e.pairs.get p
  e.issue .configWrite (areaWords x
    [(configOffset + 0x0A + 4 * p.number, lohi (r.mode.code + 16 * sideCode r.kept) r.lost)]) none

/-- The words of a split log entry (10.6). -/
def LogEntry.words (l : LogEntry) : List Word :=
  [lohi l.pair.number (sideCode l.good), lohi l.place.cylinder l.place.surface,
    lohi l.place.sector l.origin, lohi l.originKind.code 0]

/-- One position of the image (R174). -/
def Engine.writeImageWords (x : Front) (e : Engine) (pos : Nat) (ws : List Word) : Engine :=
  e.issue .imageWrite (areaWords x (ws.zipIdx.map fun p => (imageOffset pos + 2 * p.2, p.1))) none

/-- The image entries of the log from a position to the end (R61). -/
def Engine.writeImageFrom (x : Front) (e : Engine) (pos : Nat) : Engine :=
  (e.log.zipIdx.drop pos).foldl (fun e p => e.writeImageWords x p.2 p.1.words) e

/-- The positions a removal has vacated, each written 0xFF in every byte (R61). -/
def Engine.writeVacated (x : Front) (e : Engine) (count : Nat) : Engine :=
  (List.range count).foldl
    (fun e k => e.writeImageWords x (e.log.length + k) [0xFFFF, 0xFFFF, 0xFFFF, 0xFFFF]) e

/-- The words of a status record (10.5). -/
def Knowledge.words (k : Knowledge) : List Word :=
  let bit (b : Bool) (n : Nat) : Nat := if b then 2 ^ n else 0
  [lohi k.state.code (bit k.writeProtected 0 + bit k.track0 1 + bit k.loaded 2 + bit k.cylinder.isSome 3 +
      bit k.mountHold 4 + bit k.aux 5 + bit k.twoSided 6),
    lohi (k.cylinder.getD 0xFF) k.generation.toNat, BitVec.ofNat 16 k.period,
    lohi k.lastVolume.toNat k.heldCount, BitVec.ofNat 16 ((k.surveyRound.map BitVec.toNat).getD 0xFF),
    0, 0, 0]

/-- A drive's status record (R153), with what is to be told when it has been written. -/
def Engine.writeStatus (x : Front) (e : Engine) (d : Drive) (notice : Option Notice) : Engine :=
  e.issue .statusWrite (areaWords x
    ((e.drive d).words.zipIdx.map fun p => (statusOffset d + 2 * p.2, p.1))) notice

/-- A slot's phase (R2, R174). -/
def Engine.writePhase (x : Front) (e : Engine) (slot phase : Nat) (notice : Option Notice) : Engine :=
  e.issue .slotWrite (areaWords x [(slotOffset slot, BitVec.ofNat 16 phase)]) notice

/-- The result fields of a slot (R25, 10.7). -/
structure Results where
  code : FinishCode
  served : Nat
  sectorsDone : Nat
  retries : Nat
  missed : Nat
  retiredMet : Nat
  logged : Nat
  fail : Option Place
  runs : Nat
  missedRounds : Nat
deriving DecidableEq, Repr

/-- Results with all counters 0 and no fail location (R17, R19). -/
def Results.bare (code : FinishCode) (served : Nat) : Results :=
  { code := code, served := served, sectorsDone := 0, retries := 0, missed := 0, retiredMet := 0,
    logged := 0, fail := none, runs := 0, missedRounds := 0 }

/-- The words of the result fields, with the finish round (10.7, R174). -/
def Results.words (r : Results) (round : Nat) : List Word :=
  let f (g : Place → Nat) : Nat := (r.fail.map g).getD 0xFF
  [lohi r.code.code r.served, BitVec.ofNat 16 r.sectorsDone, lohi r.retries r.missed,
    lohi r.retiredMet r.logged, lohi (f Place.cylinder) (f Place.surface), lohi (f Place.sector) round,
    lohi r.runs r.missedRounds]

/-- The finish or run results of a slot (R24, R25, R86). The finish round is the current round. -/
def Engine.writeResults (x : Front) (e : Engine) (slot : Nat) (r : Results) : Engine :=
  e.issue .slotWrite (areaWords x
    ((r.words x.round.toNat).zipIdx.map fun p => (slotOffset slot + 0x12 + 2 * p.2, p.1))) none

/-- The last-action record: the action word and its outcome (R9), with what is to be told when it has been
written. -/
def Engine.recordAction (x : Front) (e : Engine) (w : Word) (o : ActionOutcome) (notice : Option Notice) :
    Engine :=
  e.headerWrite x [(0x0C, w), (0x0E, BitVec.ofNat 16 o.code)] notice

/-- The last-action record as the last write of its action (R7, R9). -/
def Engine.writeLastAction (x : Front) (e : Engine) (w : Word) (o : ActionOutcome) : Engine :=
  e.recordAction x w o (some .lastAction)

/-- The completion of the request at the tail of the queue is to be told to its block. -/
def Engine.tellLast (e : Engine) (n : Notice) : Engine :=
  { e with port := { e.port with
      queue := e.port.queue.dropLast ++
        (e.port.queue.getLast?.map fun r => { r with notice := some n }).toList } }

/-! ### The port at work (R171) -/

/-- A channel has a word waiting. -/
def Channel.wordWaiting (ch : Channel) : Bool := ch.transfers.any fun t => decide (t.moved < t.words)

/-- The transfer that gives the channel's next word: of those with words left the one begun first, whichever
buffer it is of (R171; log 66). -/
def Channel.transfer? (ch : Channel) : Option Transfer :=
  ch.transfers.find? fun t => decide (t.moved < t.words)

/-- Word `k` of a buffer's bytes, low-order byte first (10.10). -/
def bufferWord (data : List Byte) (k : Nat) : Word :=
  lohi (data.getD (2 * k) 0).toNat (data.getD (2 * k + 1) 0).toNat

/-- One word of a transfer in memory: a copy lands its word, a fetch changes no memory. -/
def memTransferWord (m : List Host.Cell) (data : List Byte) (t : Transfer) (k : Nat) : List Host.Cell :=
  if t.toHost then memWriteWord m (t.addr + 2 * k) (bufferWord data k) else m

/-- Count one word moved by the transfer begun first of those that have words left (R171; log 66). -/
def countWord : List Transfer → List Transfer
  | [] => []
  | t :: rest => if t.moved < t.words then { t with moved := t.moved + 1 } :: rest else t :: countWord rest

/-- One word of a channel moves. -/
def State.moveWord (s : State) (c : Side) : State :=
  let ch := s.engine.chan c
  match ch.transfer? with
  | none => s
  | some t =>
    { s with
      mem := memTransferWord s.mem (ch.buffers.get t.buf).data t t.moved,
      engine := s.engine.setChan c { ch with transfers := countWord ch.transfers } }

/-- The record request at the head of the queue completes: its words have moved, and its block is to be
told (R171). -/
def State.completeRecord (s : State) : State :=
  match s.engine.port.queue with
  | [] => s
  | r :: rest =>
    { s with
      mem := memAccesses s.mem r.words,
      engine := { s.engine with
        port := { s.engine.port with
          queue := rest, notices := s.engine.port.notices ++ r.notice.toList } } }

/-- The port has no access in progress. -/
def State.portIdle (s : State) : State :=
  { s with engine := { s.engine with port := { s.engine.port with inProgress := none } } }

/-- The access in progress, if any, has ended without a bus error. -/
def State.completeCurrent (s : State) : State :=
  match s.engine.port.inProgress with
  | none => s
  | some .record => s.completeRecord.portIdle
  | some (.word c) => (s.moveWord c).portIdle

/-- A request tells what is looked for. -/
def Request.tells (p : Notice → Bool) (r : Request) : Bool := r.notice.any p

/-- The channel whose word goes next: the one not served at the last channel grant, when both wait (R171). -/
def Engine.nextWord? (e : Engine) : Option Side :=
  match (e.chan .A).wordWaiting, (e.chan .B).wordWaiting with
  | true, true => some e.port.lastWord.other
  | true, false => some .A
  | false, true => some .B
  | false, false => none

/-- The arbiter starts the next access: a channel's word first, else the record request at the head
(R171). -/
def Engine.arbitrate (e : Engine) : Engine :=
  match e.nextWord? with
  | some c => { e with port := { e.port with inProgress := some (.word c), lastWord := c } }
  | none =>
    if e.port.queue.isEmpty then e else { e with port := { e.port with inProgress := some .record } }

/-- One grant: the access before it has ended (log 6), and the next one starts (R171). -/
def State.grant (s : State) : State :=
  let s := s.completeCurrent
  { s with engine := s.engine.arbitrate }

/-- Grants, at most `n`, until a state is reached (R171; log 5). -/
def State.serveUntil (p : State → Bool) : Nat → State → State
  | 0, s => s
  | n + 1, s => if p s then s else State.serveUntil p n s.grant

/-- The words that a channel has waiting. -/
def Channel.wordsLeft (ch : Channel) : Nat := (ch.transfers.map fun t => t.words - t.moved).sum

/-- The accesses that wait, the one in progress among them: as many grants serve them all. -/
def State.accessesLeft (s : State) : Nat :=
  (s.engine.chan .A).wordsLeft + (s.engine.chan .B).wordsLeft + s.engine.port.queue.length

/-- A command that tells of an access finds the port where that access is the one on the bus: every access
that the arbiter puts before it has ended (R171; log 5). -/
def State.serveTo (s : State) (p : State → Bool) : State := s.serveUntil p s.accessesLeft

/-- A command that follows a completion finds the port where it has come: the accesses up to the one that
completes it have ended, in the arbiter's order (R171; log 5). -/
def State.serve (s : State) (p : State → Bool) : State :=
  if p s then s else (s.serveTo fun s => p s.completeCurrent).completeCurrent

/-- What is looked for has been told. -/
def State.told (p : Notice → Bool) (s : State) : Bool := s.engine.port.notices.any p

/-- Take a completion that a block waits for: one already told, or one whose request is in the queue and
has now completed. None when there is no such request. -/
def State.await (s : State) (p : Notice → Bool) : Option (Notice × State) :=
  let s := if s.engine.port.queue.any (Request.tells p) then s.serve (State.told p) else s
  match s.engine.port.notices.find? p with
  | none => none
  | some n =>
    some (n, { s with engine := { s.engine with
      port := { s.engine.port with notices := s.engine.port.notices.eraseP p } } })

/-- A finish's completion, whatever its slot. -/
def Notice.isDoneBit : Notice → Bool
  | .doneBit _ _ _ _ => true
  | _ => false

/-- A finish is still to be written or its DONE bit to be set. -/
def Engine.finishOutstanding (e : Engine) : Bool :=
  e.port.queue.any (Request.tells Notice.isDoneBit) || e.port.notices.any Notice.isDoneBit

end Sys2Proof.Machine
end

