-- ==== Sys2Proof/Machine/Flags.lean ====
section
/-! DEFINITION. The register bits: ATTENTION, the DONE bits with their notify-pending mask, the
interrupt line, and the values the six registers read (R26, R166 to R170, R176, 10.9). -/

namespace Sys2Proof.Machine

/-- Bits of ATTENTION (10.9). -/
def attnDrive (d : Drive) : Nat := d.number
def attnSurveyDone : Nat := 4
def attnClose : Nat := 5
def attnSplitRoom : Nat := 6
def attnActionLost : Nat := 7
def attnConfigError : Nat := 8
def attnFault : Nat := 9

/-- A block sets an ATTENTION bit (R169). -/
def Engine.setAttention (e : Engine) (bit : Nat) : Engine :=
  { e with attention := e.attention ||| BitVec.twoPow 10 bit }

/-- A host write clears each bit written as 1 (R169, R176: bits 10 to 15 are ignored). -/
def Engine.clearAttention (e : Engine) (w : Word) : Engine :=
  { e with attention := e.attention &&& ~~~(w.setWidth 10) }

/-- The roster sets a slot's DONE bit; the notify-pending bit takes the NOTIFY flag (R26). -/
def Front.setDone (x : Front) (slot : Nat) (notify : Bool) : Front :=
  let bit := BitVec.twoPow 32 slot
  { x with
    done := x.done ||| bit,
    notify := if notify then x.notify ||| bit else x.notify &&& ~~~bit }

/-- The 32 bits a write to DONE LOW or DONE HIGH names (10.9). -/
def doneBits (high : Bool) (w : Word) : BitVec 32 :=
  if high then w.setWidth 32 <<< 16 else w.setWidth 32

/-- A host write clears the DONE bits written as 1, and their notify-pending bits (R26, R169). -/
def Front.clearDone (x : Front) (high : Bool) (w : Word) : Front :=
  { x with done := x.done &&& ~~~(doneBits high w), notify := x.notify &&& ~~~(doneBits high w) }

/-- The causes enabled in ATTENTION: the mask in effect, and CONFIG_ERROR and FAULT always (R170). -/
def Front.enabledCauses (x : Front) : BitVec 10 := x.enable.setWidth 10 ||| 0x300#10

/-- The interrupt line INT (R170). -/
def State.interrupt (s : State) : Bool :=
  s.front.done &&& s.front.notify != 0 || s.engine.attention &&& s.front.enabledCauses != 0

/-- A channel is busy (R166). -/
def Channel.busy (ch : Channel) : Bool :=
  match ch.state with
  | .idle => false
  | .stopped => false
  | .partnerWait => true
  | .positioning => true
  | .trackPass => true
  | .verifyPass => true
  | .surveyStep => true

/-- The action queue's free count (R166, R168). -/
def Front.freeActions (x : Front) : Nat := Config.actionCapacity - x.actionQ.length

/-- COMMAND/STATE as it reads (R166, 10.9). This read and those of the other registers give the values held,
also while the reset line is active (log 61). -/
def State.readCommandState (s : State) : Word :=
  BitVec.ofNat 16 (s.front.ctl.code + 16 * s.front.freeActions +
    (if (s.engine.chan .A).busy then 2 ^ 8 else 0) + (if (s.engine.chan .B).busy then 2 ^ 9 else 0) +
    (if s.interrupt then 2 ^ 15 else 0))

/-- AREA BASE as it reads (R167). -/
def State.readAreaBase (s : State) : Word := s.front.areaBase.setWidth 16

/-- ACTION as it reads (R168). -/
def State.readAction (s : State) : Word := BitVec.ofNat 16 s.front.freeActions

/-- DONE LOW and DONE HIGH as they read (R169). -/
def State.readDoneLow (s : State) : Word := s.front.done.setWidth 16
def State.readDoneHigh (s : State) : Word := (s.front.done >>> 16).setWidth 16

/-- ATTENTION as it reads (R169, R176). -/
def State.readAttention (s : State) : Word := s.engine.attention.setWidth 16

/-- BREQ: an access waits or is in progress (R171). -/
def State.busRequest (s : State) : Bool :=
  s.engine.port.inProgress.isSome || !s.engine.port.queue.isEmpty ||
  (s.engine.chan .A).wordWaiting || (s.engine.chan .B).wordWaiting

/-- The select line a channel drives: its selected drive, or the drive of an unload touch (R104, R115). -/
def Channel.selectLine (ch : Channel) : Option PairId := ch.selected.or (ch.touch.map Touch.pair)

/-- The STEP line pulses while a step is in hand (R105, R109). -/
def Channel.stepLine (ch : Channel) : Bool :=
  match ch.act with
  | .stepping _ => true
  | _ => false

end Sys2Proof.Machine
end

