-- ==== Sys2Proof/Machine/Operands.lean ====
section
/-! DEFINITION. The operand forms: how the part reads the words of a slot, of the configuration block,
of desk and drive records and of the split log image, which bits it uses, what it clamps, and the checks
START makes on them (R57, R62, R106, R124, R163, R164, R175, 10.3 to 10.7). -/

namespace Sys2Proof.Machine

/-- `n` bits of a word from bit `lo` on, as a number. -/
def bitField (w : Word) (lo n : Nat) : Nat := w.toNat / 2 ^ lo % 2 ^ n

/-- One bit of a word. -/
def bitAt (w : Word) (n : Nat) : Bool := w.getLsbD n

def lowByte (w : Word) : Nat := bitField w 0 8
def highByte (w : Word) : Nat := bitField w 8 8

/-- Word `k` of a record as read; a record has all its words (log 29). -/
def wordAt (ws : List Word) (k : Nat) : Word := ws.getD k 0

/-! ### A slot (10.7, R175) -/

/-- The host fields of a slot as read, codes not yet checked. -/
structure RawOrder where
  phase : Nat
  kind : Nat
  desk : Nat
  drive : Nat
  pairCopy : Bool
  policy : Nat
  notify : Bool
  rush : Bool
  drop : Bool
  verify : Bool
  standing : Bool
  changedOnly : Bool
  cylinder : Nat
  surface : Nat
  firstSector : Nat
  count : Nat
  volume : Byte
  fill : Byte
  buffer : Nat
  roundMask : Nat
  roundValue : Nat
deriving DecidableEq, Repr

/-- The host fields in the words of a slot (10.7). Bits without a field are not read (R175). -/
def rawOrder (ws : List Word) : RawOrder :=
  let w2 := wordAt ws 2
  { phase := lowByte (wordAt ws 0), kind := lowByte (wordAt ws 1), desk := highByte (wordAt ws 1),
    drive := bitField w2 0 4, pairCopy := bitAt w2 4, policy := bitField w2 6 2,
    notify := bitAt w2 8, rush := bitAt w2 9, drop := bitAt w2 10, verify := bitAt w2 11,
    standing := bitAt w2 12, changedOnly := bitAt w2 13,
    cylinder := lowByte (wordAt ws 3), surface := highByte (wordAt ws 3),
    firstSector := lowByte (wordAt ws 4), count := highByte (wordAt ws 4),
    volume := BitVec.ofNat 8 (lowByte (wordAt ws 5)), fill := BitVec.ofNat 8 (highByte (wordAt ws 5)),
    buffer := (wordAt ws 6).toNat + 65536 * bitField (wordAt ws 7) 0 4,
    roundMask := lowByte (wordAt ws 8), roundValue := highByte (wordAt ws 8) }

/-- The fields the roster keeps, once the codes have been checked (R5, R12): a VERIFY flag on a kind that
does not write is not kept, and CHANGED-ONLY is read only with STANDING. MEND and DETACH act as PAIR,
LOCK and UNLOCK as ONE. -/
def RawOrder.fields (r : RawOrder) (kind : Kind) (policy : Policy) (drive : Drive) : OrderFields :=
  { kind := kind, desk := r.desk, drive := drive,
    pairCopy := match kind with
      | .mend => true
      | .detach => true
      | .lock => false
      | .unlock => false
      | .read => r.pairCopy
      | .write => r.pairCopy
      | .check => r.pairCopy
      | .format => r.pairCopy
      | .retire => r.pairCopy
      | .seek => r.pairCopy
      | .recalibrate => r.pairCopy
    policy := policy, notify := r.notify, rush := r.rush, drop := r.drop,
    verify := r.verify && kind.writes, standing := r.standing,
    changedOnly := r.changedOnly && r.standing, cylinder := r.cylinder, surface := r.surface,
    firstSector := r.firstSector, count := r.count, volume := r.volume, fill := r.fill,
    buffer := r.buffer, roundMask := BitVec.ofNat 6 r.roundMask,
    roundValue := BitVec.ofNat 6 r.roundValue }

/-! ### Desk records (R23, 10.4) -/

/-- An outstanding limit of 0 is taken as 1, one above 32 as 32 (R23). -/
def deskLimit (n : Nat) : Nat := min 32 (max 1 n)

def deskOf (ws : List Word) : Desk :=
  { enabled := bitAt (wordAt ws 0) 0, cls := bitField (wordAt ws 1) 0 2,
    limit := deskLimit (wordAt ws 2).toNat }

/-- The eight desk records. -/
def desksOf (ws : List Word) : List Desk := (List.range 8).map fun k => deskOf (ws.drop (4 * k))

/-! ### Drive records (R106, R164, 10.4) -/

/-- A timing field clamped to its range (R106). -/
def clampStep (n : Nat) : Nat := min 16 (max 1 n)
def clampSettle (n : Nat) : Nat := min 30 n
def clampLoad (n : Nat) : Nat := min 60 n

/-- One drive record: the field checks of R164, then the track fit of R124. A record that is not present
is not checked (R163). -/
def driveRecordOf (ws : List Word) : Except ConfigErrorCode DriveRecord :=
  let w0 := wordAt ws 0
  let w1 := wordAt ws 1
  let w2 := wordAt ws 2
  if bitAt w0 0 then
    let density := bitField w0 4 2
    let sizeCode := bitField w0 8 3
    let first := bitField w0 12 2
    let surfaces := lowByte w1
    let cylinders := highByte w1
    let sectors := lowByte w2
    if density ≤ 1 ∧ 1 ≤ surfaces ∧ surfaces ≤ 2 ∧ 1 ≤ cylinders ∧ cylinders ≤ 80 ∧
        1 ≤ sectors ∧ sectors ≤ 32 ∧ sizeCode ≤ 3 ∧ first ≤ 1 then
      match auxOf? (bitField w2 8 3), edgeOf? (bitField w2 12 3) with
      | some aux, some edge =>
        if trackFits (density == 1) sectors (sizeBytes sizeCode) then
          .ok { present := true, debounce := bitAt w0 1, mfm := density == 1, sizeCode := sizeCode,
                firstSector := first, surfaces := surfaces, cylinders := cylinders, sectors := sectors,
                aux := aux, edge := edge, step := clampStep (lowByte (wordAt ws 3)),
                settle := clampSettle (highByte (wordAt ws 3)),
                load := clampLoad (lowByte (wordAt ws 4)), unload := highByte (wordAt ws 4) }
        else .error .trackOverfull
      | _, _ => .error .driveGeometry
    else .error .driveGeometry
  else .ok DriveRecord.absent

/-- Record `d` of the four drive records, a failure naming the drive (R163). -/
def driveRecordAt (ws : List Word) (d : Drive) : Except (ConfigErrorCode × Nat) DriveRecord :=
  match driveRecordOf (ws.drop (8 * d.number)) with
  | .ok r => .ok r
  | .error c => .error (c, d.number)

/-- The four drive records, checked in number order (R163). -/
def driveRecordsOf (ws : List Word) : Except (ConfigErrorCode × Nat) (ByDrive DriveRecord) := do
  let r0 ← driveRecordAt ws ⟨.A, .p0⟩
  let r1 ← driveRecordAt ws ⟨.A, .p1⟩
  let r2 ← driveRecordAt ws ⟨.B, .p0⟩
  let r3 ← driveRecordAt ws ⟨.B, .p1⟩
  pure ⟨⟨r0, r1⟩, ⟨r2, r3⟩⟩

/-! ### The configuration block (R164, 10.3) -/

def clampOverdue (n : Nat) : Nat := min 255 (max 16 n)
def clampWindow (n : Nat) : Nat := min Config.maxRushWindow n
def clampRetry (n : Nat) : Nat := min 7 n

/-- The two drive records agree in every geometry field (R57). -/
def sameGeometry (a b : DriveRecord) : Bool :=
  a.mfm == b.mfm && a.surfaces == b.surfaces && a.cylinders == b.cylinders && a.sectors == b.sectors &&
  a.sizeCode == b.sizeCode && a.firstSector == b.firstSector

/-- One pair record, checked (R57). An unbound pair keeps the values the pair manager had, since its mode,
kept side and lost count are not read (R56). Bits 4 and 5 hold the kept side; for an ATTACHED pair any
code but B is taken as A (log 26). -/
def pairRecordAt (config : List Word) (drives : ByDrive DriveRecord) (old : PairRecord) (p : PairId) :
    Except (ConfigErrorCode × Nat) PairRecord :=
  let bound := bitAt (wordAt config (4 + 2 * p.number)) 0
  let w := wordAt config (5 + 2 * p.number)
  if bound then
    let mode := bitField w 0 2
    let kept := bitField w 4 2
    let lost := highByte w
    if mode ≤ 1 ∧ (mode = 1 → kept ≤ 1) ∧ lost ≤ 32 then
      let ra := drives.drive ⟨.A, p⟩
      let rb := drives.drive ⟨.B, p⟩
      if ra.present && rb.present && sameGeometry ra rb then
        .ok { bound := true, mode := if mode = 1 then .detached else .attached,
              kept := if kept = 1 then .B else .A, lost := lost }
      else .error (.pairMismatch, p.number)
    else .error (.pairRecord, p.number)
  else .ok { old with bound := false }

/-- Pair 0, then pair 1 (R57). -/
def pairRecordsOf (config : List Word) (drives : ByDrive DriveRecord) (old : ByPair PairRecord) :
    Except (ConfigErrorCode × Nat) (ByPair PairRecord) := do
  let p0 ← pairRecordAt config drives old.p0 .p0
  let p1 ← pairRecordAt config drives old.p1 .p1
  pure ⟨p0, p1⟩

/-! ### The split log image (R62, 10.6) -/

/-- The kinds an entry may name as its origin (R59). -/
def originKindOf? (code : Nat) : Option Kind :=
  match kindOf? code with
  | some .write => some .write
  | some .check => some .check
  | some .format => some .format
  | some .retire => some .retire
  | _ => none

def sideOf? : Nat → Option Side
  | 0 => some .A
  | 1 => some .B
  | _ => none

/-- The same sector: pair, cylinder, surface and sector number (R59). -/
def LogEntry.sameSector (a b : LogEntry) : Bool := a.pair == b.pair && a.place == b.place

/-- One image entry, with the faults of R62 against the entries before it. -/
def imageEntry (pairs : ByPair PairRecord) (drives : ByDrive DriveRecord) (before : List LogEntry)
    (ws : List Word) : Option LogEntry :=
  match PairId.ofNumber? (lowByte (wordAt ws 0)), sideOf? (highByte (wordAt ws 0)),
      originKindOf? (lowByte (wordAt ws 3)) with
  | some p, some good, some kind =>
    let r := drives.drive ⟨.A, p⟩
    let place : Place := { cylinder := lowByte (wordAt ws 1), surface := highByte (wordAt ws 1),
                           sector := lowByte (wordAt ws 2) }
    let l : LogEntry := { pair := p, good := good, place := place, origin := highByte (wordAt ws 2),
                          originKind := kind }
    if (pairs.get p).bound && (pairs.get p).mode == .attached &&
        decide (place.cylinder < r.cylinders) && decide (place.surface < r.surfaces) &&
        decide (r.firstSector ≤ place.sector) && decide (place.sector < r.firstSector + r.sectors) &&
        decide (l.origin < 32) && !(before.any l.sameSector)
    then some l else none
  | _, _, _ => none

/-- `n` entries of the image from position `pos` on; a fault gives its position. -/
def imageEntries (pairs : ByPair PairRecord) (drives : ByDrive DriveRecord) :
    Nat → Nat → List Word → List LogEntry → Except (ConfigErrorCode × Nat) (List LogEntry)
  | 0, _, _, before => .ok before
  | n + 1, pos, ws, before =>
    match imageEntry pairs drives before ws with
    | none => .error (.splitImage, pos)
    | some l => imageEntries pairs drives n (pos + 1) (ws.drop 4) (before ++ [l])

/-- The split log image of a length (R62). -/
def imageOf (pairs : ByPair PairRecord) (drives : ByDrive DriveRecord) (length : Nat) (ws : List Word) :
    Except (ConfigErrorCode × Nat) (List LogEntry) :=
  if length ≤ Config.logCapacity then imageEntries pairs drives length 0 ws []
  else .error (.splitImage, 32)

/-! ### START's checks in their order (R163) -/

/-- What a START that passes its checks commits (R165). -/
structure Commit where
  tables : Tables
  window : Nat
  enable : BitVec 8
  pairs : ByPair PairRecord
  log : List LogEntry
deriving DecidableEq, Repr

/-- Stages 3 and 4 of R163 on the tables read. -/
def checkTables (old : ByPair PairRecord) (a : AreaData) :
    Except (ConfigErrorCode × Nat) (ByDrive DriveRecord × ByPair PairRecord) := do
  let drives ← driveRecordsOf a.drives
  let pairs ← pairRecordsOf a.config drives old
  pure (drives, pairs)

/-- The split log length of the configuration block (R62, 10.3). -/
def imageLength (a : AreaData) : Nat := (wordAt a.config 8).toNat

/-- Stages 3 to 5 of R163 on the tables and the image entries read. -/
def checkArea (old : ByPair PairRecord) (a : AreaData) (image : List Word) :
    Except (ConfigErrorCode × Nat) Commit := do
  let (drives, pairs) ← checkTables old a
  let log ← imageOf pairs drives (imageLength a) image
  pure { tables := { desks := desksOf a.desks, drives := drives,
                     overdue := clampOverdue (wordAt a.config 0).toNat,
                     retry := clampRetry (wordAt a.config 2).toNat },
         window := clampWindow (wordAt a.config 1).toNat,
         enable := (wordAt a.config 3).setWidth 8, pairs := pairs, log := log }

/-! ### Actions (R176) -/

/-- Code and operand of an action word (10.9). -/
def actionCode (w : Word) : Nat := highByte w
def actionOperand (w : Word) : Nat := lowByte w

/-- The drives a survey mask names: bits 0 to 3 of the operand (R156). -/
def surveyMask (w : Word) : ByDrive Bool := ⟨⟨bitAt w 0, bitAt w 1⟩, ⟨bitAt w 2, bitAt w 3⟩⟩

end Sys2Proof.Machine
end

