-- ==== Sys2Proof/Machine/Drives.lean ====
section
/-! DEFINITION. The knowledge records and output latches of the drive line unit, and the writing of the
status records (R143, R147 to R149, R153). -/

namespace Sys2Proof.Machine

/-- The drive record START took for a drive. -/
def Front.record (x : Front) (d : Drive) : DriveRecord := x.tables.drives.drive d

/-- The controller is in RUN or DRAINING. -/
def Front.active (x : Front) : Bool := x.ctl == .run || x.ctl == .draining

/-- The functions that drive the aux line as an output (R147). -/
def AuxFunction.output : AuxFunction → Bool
  | .doorLock => true
  | .inUseLamp => true
  | .none => false
  | .twoSidedSense => false
  | .changeSense => false

/-- The output latch a record asks for: the lock follows the held count and the mount hold in RUN and
DRAINING and otherwise stays as it is (R148); the lamp follows the head (R149). -/
def Front.latchOf (x : Front) (d : Drive) (k : Knowledge) : Bool :=
  match (x.record d).aux with
  | .doorLock => if x.active then decide (0 < k.heldCount) || k.mountHold else k.latch
  | .inUseLamp => k.loaded
  | .none => false
  | .twoSidedSense => false
  | .changeSense => false

/-- A record with its output latch brought up to date; the aux level shows the latch of an output (R147). -/
def Front.relatch (x : Front) (d : Drive) (k : Knowledge) : Knowledge :=
  { k with
    latch := x.latchOf d k,
    aux := if (x.record d).aux.output then x.latchOf d k else k.aux }

/-- A difference for which the status record is written (R153). -/
def Knowledge.reportable (a b : Knowledge) : Bool :=
  a.state != b.state || a.generation != b.generation || a.loaded != b.loaded ||
  a.cylinder.isSome != b.cylinder.isSome || a.mountHold != b.mountHold ||
  a.writeProtected != b.writeProtected || a.heldCount != b.heldCount || a.latch != b.latch

/-- A change of a knowledge record: the latch follows it, and the status record is written where R153
asks for it. Causes that fall together are written once (log 13). -/
def Engine.updDrive (x : Front) (e : Engine) (d : Drive) (f : Knowledge → Knowledge) : Engine :=
  let k := e.drive d
  let k' := x.relatch d (f k)
  let e := e.setDrive d k'
  if k.reportable k' then e.writeStatus x d none else e

/-- A change of a knowledge record whose status write is made by the caller. -/
def Engine.changeDrive (x : Front) (e : Engine) (d : Drive) (f : Knowledge → Knowledge) : Engine :=
  e.setDrive d (x.relatch d (f (e.drive d)))

/-- Every drive's record, adjusted on entering RUN (R143, R147, R160). -/
def Knowledge.atStart (x : Front) (d : Drive) (k : Knowledge) : Knowledge :=
  if (x.record d).present then
    x.relatch d
      { k with
        state := if k.state = .unconfigured then .unknown else k.state, sampleRun := 0,
        lastSample := none, mountHold := false, heldCount := 0,
        aux := if (x.record d).aux = .none then false else k.aux,
        twoSided := if (x.record d).aux = .twoSidedSense then k.twoSided else false }
  else
    { Knowledge.reset with
      state := .unconfigured, generation := k.generation, surveyRound := k.surveyRound }

/-- The drives a pair covers: side A's and side B's. -/
def pairDrives (p : PairId) : List Drive := [⟨.A, p⟩, ⟨.B, p⟩]

/-- The other drive of the pair. -/
def Drive.partner (d : Drive) : Drive := ⟨d.side.other, d.pair⟩

end Sys2Proof.Machine
end

