-- ==== Sys2Proof/Machine/Pairs.lean ====
section
/-! DEFINITION. The pair manager: the places of an order's sectors, the split log and its write-backs,
reservations, resolution of mirrored sectors, and detaching (R13, R56, R59 to R63, R66 to R74). -/

namespace Sys2Proof.Machine

/-! ### Places of an order's sectors (R13, R38, R128) -/

def Order.kind (o : Order) : Kind := o.fields.kind

/-- The pair the order's drive belongs to. -/
def Order.pair (o : Order) : PairId := o.fields.drive.pair

/-- The geometry of the order's drive. -/
def Order.geometry (x : Front) (o : Order) : DriveRecord := x.record o.fields.drive

/-- A PAIR order, or a MEND, covers both drives of its pair (R6, R38). -/
def OrderFields.covers (f : OrderFields) (d : Drive) : Bool :=
  f.drive == d || (f.pairCopy && f.drive.pair == d.pair)

def Order.covers (o : Order) (d : Drive) : Bool := o.fields.covers d

/-- Track number of a cylinder and surface, counted in logical track order (R77). -/
def trackOf (r : DriveRecord) (cylinder surface : Nat) : Nat := cylinder * r.surfaces + surface

/-- Position of the first sector on the drive (R13). -/
def OrderFields.start (r : DriveRecord) (f : OrderFields) : Nat :=
  trackOf r f.cylinder f.surface * r.sectors + (f.firstSector - r.firstSector)

/-- How many sectors an order has: the count, or a FORMAT's whole track (R71). -/
def Order.sectorCount (x : Front) (o : Order) : Nat :=
  match o.kind with
  | .format => (o.geometry x).sectors
  | .read => o.fields.count
  | .write => o.fields.count
  | .check => o.fields.count
  | .retire => o.fields.count
  | .seek => 0
  | .recalibrate => 0
  | .mend => 0
  | .lock => 0
  | .unlock => 0
  | .detach => 0

/-- Place of the sector at a position counted over the whole drive. -/
def placeAt (r : DriveRecord) (p : Nat) : Place :=
  { cylinder := p / (r.surfaces * r.sectors), surface := p / r.sectors % r.surfaces,
    sector := p % r.sectors + r.firstSector }

/-- Position of an order's sector `i` over the whole drive. -/
def Order.sectorPos (x : Front) (o : Order) (i : Nat) : Nat :=
  match o.kind with
  | .format => trackOf (o.geometry x) o.fields.cylinder o.fields.surface * (o.geometry x).sectors + i
  | _ => o.fields.start (o.geometry x) + i

/-- Place of an order's sector `i` in logical order. -/
def Order.place (x : Front) (o : Order) (i : Nat) : Place := placeAt (o.geometry x) (o.sectorPos x i)

/-- Track of an order's sector `i`. -/
def Order.trackAt (x : Front) (o : Order) (i : Nat) : Nat := o.sectorPos x i / (o.geometry x).sectors

/-- The order's last track. -/
def Order.lastTrack (x : Front) (o : Order) : Nat := o.trackAt x (o.sectorCount x - 1)

/-! ### Progress entries -/

def Order.entry (o : Order) (c : Side) (i : Nat) : Entry := (o.progress.get c).getD i .notBegun

def Order.setEntry (o : Order) (c : Side) (i : Nat) (v : Entry) : Order :=
  { o with progress := o.progress.set c ((o.progress.get c).set i v) }

/-- Fresh progress of both sides (R5). -/
def freshProgress : BySide (List Entry) := BySide.both (List.replicate 32 .notBegun)

/-! ### The split log (R59 to R61) -/

/-- The good side of a listed sector. -/
def Engine.goodSide? (e : Engine) (p : PairId) (pl : Place) : Option Side :=
  (e.log.find? fun l => l.pair == p && l.place == pl).map LogEntry.good

/-- The write-back of a log change at a position (R61): image entries from there on, vacated positions,
the length, then the counts. -/
def Engine.writeBack (x : Front) (e : Engine) (pos vacated : Nat) : Engine :=
  (((e.writeImageFrom x pos).writeVacated x vacated).writeLogLength x).writeCounts x

/-- Add an entry at the tail, or rewrite in place the entry of the same sector (R60). -/
def Engine.logSet (x : Front) (e : Engine) (l : LogEntry) : Engine :=
  match e.log.findIdx? l.sameSector with
  | some k => { e with log := e.log.set k l }.writeBack x k 0
  | none => { e with log := e.log ++ [l] }.writeBack x e.log.length 0

/-- Remove every entry that a test picks, the later ones moving up (R60); several entries removed by one
event are written back together (log 33). -/
def Engine.logRemove (x : Front) (e : Engine) (p : LogEntry → Bool) : Engine :=
  match e.log.findIdx? p with
  | none => e
  | some k =>
    { e with log := e.log.filter fun l => !(p l) }.writeBack x k (e.log.filter p).length

/-! ### Reservations (R63) -/

/-- The order needs log room (R36): PAIR WRITE, FORMAT, RETIRE or CHECK on a bound, ATTACHED pair. -/
def Order.needsRoom (e : Engine) (o : Order) : Bool :=
  o.fields.pairCopy && (o.kind.writes || o.kind == .check) && (e.pairs.get o.pair).bound &&
  (e.pairs.get o.pair).mode == .attached

/-- Free entries of the log (R36). -/
def Engine.freeEntries (e : Engine) : Nat := Config.logCapacity - e.log.length - e.reserved

/-- The grant takes the order's reservation (R63). -/
def Engine.reserve (x : Front) (e : Engine) (slot n : Nat) : Engine :=
  if n = 0 then e
  else
    { e with reserved := e.reserved + n }.updOrder slot (fun o => { o with reservation := n })
      |>.writeReserved x

/-- What remains of the order's reservation is returned to the total (R63). -/
def Engine.unreserve (x : Front) (e : Engine) (slot : Nat) : Engine :=
  match e.order? slot with
  | none => e
  | some o =>
    if o.reservation = 0 then e
    else
      { e with reserved := e.reserved - o.reservation }.updOrder slot (fun o => { o with reservation := 0 })
        |>.writeReserved x

/-- One sector is resolved: the reservation falls by 1, without its header write. -/
def Engine.spend (e : Engine) (slot : Nat) : Engine :=
  match e.order? slot with
  | none => e
  | some o =>
    if o.reservation = 0 then e
    else { e with reserved := e.reserved - 1 }.updOrder slot
      (fun o => { o with reservation := o.reservation - 1 })

/-! ### Use of sectors and their resolution (R66 to R72) -/

/-- A side may use a sector: it is not listed, or listed with this side good (R66). -/
def Engine.mayUse (e : Engine) (o : Order) (pl : Place) (c : Side) : Bool :=
  match e.goodSide? o.pair pl with
  | none => true
  | some g => g == c

/-- The side has the sector, for a writing kind (R69); at a stop also when it is written and not yet
verified (R70). -/
def Entry.has (final : Bool) : Entry → Bool
  | .done => true
  | .written => final
  | .notBegun => false
  | .copying => false
  | .failed _ => false

/-- The side's outcome is known. See log 21. -/
def Entry.settled (final : Bool) : Entry → Bool
  | .done => true
  | .failed _ => true
  | .written => final
  | .notBegun => final
  | .copying => final

/-- The code of a failed entry. -/
def Entry.failure : Entry → Option FinishCode
  | .failed c => some c
  | .done => none
  | .written => none
  | .notBegun => none
  | .copying => none

/-- A code with which a check finds a copy bad (R72). -/
def FinishCode.badCopy (c : FinishCode) : Bool := c == .sectorNotFound || c == .idCheck || c == .dataCheck

/-- An entry that a check found bad (R72), as against one failed with its whole side or by a RETIRED mark
under STOP. -/
def Entry.bad (v : Entry) : Bool := v.failure.any FinishCode.badCopy

/-- A RETIRED mark under STOP has ended the order at this sector (R67, R72). -/
def Entry.retiredStop (v : Entry) : Bool := v == .failed .retiredFound

/-- Log a one-side outcome for an order's sector, unless the pair has detached (R69, R70). -/
def Engine.logOutcome (x : Front) (e : Engine) (o : Order) (pl : Place) (good : Side) : Engine :=
  if (e.pairs.get o.pair).mode = .attached then
    (e.logSet x { pair := o.pair, good := good, place := pl, origin := o.slot, originKind := o.kind }).updOrder
      o.slot fun o => { o with logged := o.logged + 1 }
  else e.writeReserved x

/-- Mark a sector resolved and count it done where it is (R63, R25). -/
def Engine.markResolved (e : Engine) (slot i : Nat) (isDone : Bool) : Engine :=
  e.updOrder slot fun o =>
    { o with
      resolved := o.resolved.set i true,
      sectorsDone := if isDone then min 65535 (o.sectorsDone + 1) else o.sectorsDone }

/-- Resolve one sector of a PAIR WRITE, FORMAT or RETIRE by the table of R69 (R70 when `final`). The code
is the sector's failure, when both sides failed it. -/
def Engine.resolveWrite (x : Front) (e : Engine) (o : Order) (i : Nat) (final : Bool) :
    Engine × Option FinishCode :=
  let a := o.entry .A i
  let b := o.entry .B i
  if a.settled final && b.settled final then
    let pl := o.place x i
    let counted := a == .done || b == .done
    let e := (e.spend o.slot).markResolved o.slot i counted
    match a.has final, b.has final with
    | true, true =>
      let listed := (e.goodSide? o.pair pl).isSome
      let e := if listed then e.logRemove x (fun l => l.pair == o.pair && l.place == pl)
        else e.writeReserved x
      (e, none)
    | true, false => (e.logOutcome x o pl .A, none)
    | false, true => (e.logOutcome x o pl .B, none)
    | false, false => (e.writeReserved x, a.failure.or b.failure)
  else (e, none)

/-- Resolve one sector of a CHECK PAIR by the table of R72; at a stop the log is unchanged. A sector at
which a RETIRED mark ends the order is left to that stop. Where the one side that may check a listed sector
has failed as a whole or is left out, the sector fails with that side's code (log 21). -/
def Engine.resolveCheck (x : Front) (e : Engine) (o : Order) (i : Nat) (final : Bool) :
    Engine × Option FinishCode :=
  let pl := o.place x i
  let a := o.entry .A i
  let b := o.entry .B i
  let ua := e.mayUse o pl .A
  let ub := e.mayUse o pl .B
  let ended := (ua && a.retiredStop) || (ub && b.retiredStop)
  if (!ua || a.settled final) && (!ub || b.settled final) && (final || !ended) then
    let spent (d : Bool) : Engine := (e.spend o.slot).markResolved o.slot i d
    if final then ((spent false).writeReserved x, none)
    else
      match ua && a == .done, ub && b == .done with
      | true, true => ((spent true).writeReserved x, none)
      | true, false =>
        (if ub && b.bad then (spent true).logOutcome x o pl .A else (spent true).writeReserved x, none)
      | false, true =>
        (if ua && a.bad then (spent true).logOutcome x o pl .B else (spent true).writeReserved x, none)
      | false, false =>
        let code :=
          if ua && a.bad then a.failure
          else if ub && b.bad then b.failure
          else if ua then a.failure else b.failure
        ((spent false).writeReserved x, code)
  else (e, none)

/-- A sector of a PAIR READ fails when every side that may use it has failed it (R67). -/
def Engine.resolveRead (x : Front) (e : Engine) (o : Order) (i : Nat) : Option FinishCode :=
  let pl := o.place x i
  match e.mayUse o pl .A, e.mayUse o pl .B with
  | true, true =>
    match (o.entry .A i).failure, (o.entry .B i).failure with
    | some c, some _ => some c
    | _, _ => none
  | true, false => (o.entry .A i).failure
  | false, true => (o.entry .B i).failure
  | false, false => none

/-- A side of a PAIR FORMAT has reported: it has no part in the order any more, or its work on the track is
over. Till then a reformat may write every sector anew, and the pair manager waits (R71, R140; log 54). -/
def Engine.formatReports (e : Engine) (slot : Nat) (c : Side) : Bool :=
  !((e.chan c).order == some slot) || (e.chan c).act == .ending

/-- What the pair manager makes of the reports on one sector of a mirrored order: the log and the
reservation brought up to date, and the code of a failed sector. A sector is resolved once (R63). -/
def Engine.resolveOnce (x : Front) (e : Engine) (slot i : Nat) (final : Bool) : Engine × Option FinishCode :=
  match e.order? slot with
  | none => (e, none)
  | some o =>
    if o.mirrored && o.finish.isNone && !(o.resolved.getD i true) then
      match o.kind with
      | .write => e.resolveWrite x o i final
      | .format =>
        if final || (e.formatReports slot .A && e.formatReports slot .B) then e.resolveWrite x o i final
        else (e, none)
      | .retire => e.resolveWrite x o i final
      | .check => e.resolveCheck x o i final
      | .read => (e, if final then none else e.resolveRead x o i)
      | .seek => (e, none)
      | .recalibrate => (e, none)
      | .mend => (e, none)
      | .lock => (e, none)
      | .unlock => (e, none)
      | .detach => (e, none)
    else (e, none)

/-- At the end of a run every sector not yet resolved is resolved, in logical order (R70, R72). -/
def Engine.resolveRest (x : Front) (e : Engine) (slot : Nat) : Engine :=
  match e.order? slot with
  | none => e
  | some o =>
    (List.range (o.sectorCount x)).foldl (fun e i => (e.resolveOnce x slot i true).1) e

/-! ### Detaching (R73, R74) -/

/-- The entries of a pair. -/
def LogEntry.ofPair (p : PairId) (l : LogEntry) : Bool := l.pair == p

/-- A medium change on a drive reaches the pair manager (R73). -/
def Engine.pairChange (x : Front) (e : Engine) (d : Drive) : Engine :=
  let r := e.pairs.get d.pair
  if r.bound && r.mode == .attached then
    let lost := (e.log.filter fun l => l.pair == d.pair && l.good == d.side).length
    let r' := { r with mode := .detached, kept := d.side.other, lost := min 32 (r.lost + lost) }
    let e := { e with pairs := e.pairs.set d.pair r' }
    (e.writePair x d.pair).logRemove x (LogEntry.ofPair d.pair)
  else e

/-- The pair is DETACHED with this side kept. -/
def PairRecord.keeps (r : PairRecord) (c : Side) : Bool := r.mode == .detached && r.kept == c

/-- A DETACH is taken: the pair runs on the named drive's side alone (R74). -/
def Engine.pairDetach (x : Front) (e : Engine) (d : Drive) : Engine :=
  let r := e.pairs.get d.pair
  let r' := { r with mode := .detached, kept := d.side }
  let e := { e with pairs := e.pairs.set d.pair r' }
  (e.writePair x d.pair).logRemove x fun l => l.pair == d.pair && l.good == d.side

/-- A MEND of a DETACHED pair has copied its last track: the pair becomes ATTACHED, and the cursors of the
pair's MENDs are discarded (R77, R78). -/
def Engine.pairAttach (x : Front) (e : Engine) (p : PairId) : Engine :=
  let r : PairRecord := e.pairs.get p
  let r' := { r with mode := .attached, lost := 0 }
  let e : Engine := { e with
    pairs := e.pairs.set p r',
    held := e.held.map fun (o : Order) =>
      if o.kind == .mend && o.pair == p then { o with cursor := none } else o }
  e.writePair x p

/-- A writing order has completed a sector on a track: cursors beyond it are set back (R78). -/
def Engine.setBack (e : Engine) (p : PairId) (track : Nat) : Engine :=
  if (e.pairs.get p).bound && (e.pairs.get p).mode == .detached then
    { e with held := e.held.map fun (o : Order) =>
        if o.kind == .mend && o.pair == p then
          { o with cursor := o.cursor.map (fun k => min k track) } else o }
  else e

end Sys2Proof.Machine
end

