-- ==== Sys2Proof/Machine/Roster.lean ====
section
/-! DEFINITION. The roster's decisions on one order: finishing it, ending a run of a standing order,
re-queueing a MEND, and the code a run has earned (R24, R25, R28, R67 to R72, R76, R77, R79, R84, R86 to
R88). The channels that hold the order are released elsewhere (Release). -/

namespace Sys2Proof.Machine

/-- The results of an order as its record has them at the decision (R25). The fail location is the
pending failure's, when that failure is the finish code and a media code; a standing order's run that ends
STOPPED in DRAINING after a media failure shows none (R25, R87; log 47). -/
def Order.results (o : Order) (code : FinishCode) : Results :=
  { code := code, served := servedCode o.served, sectorsDone := o.sectorsDone, retries := o.retries,
    missed := o.missed, retiredMet := o.retiredMet, logged := o.logged,
    fail := match o.pendingCode with
      | some (c, p) => if c = code ∧ c.isMedia = true then some p else none
      | none => none
    runs := if o.fields.standing then o.runs else 0,
    missedRounds := if o.fields.standing then o.missedRounds else 0 }

/-- The per-run items of a record at their acceptance values (R5, R84, R86). -/
def Order.clearRun (o : Order) : Order :=
  { o with
    progress := freshProgress, sectorsDone := 0, retries := 0, missed := 0, retiredMet := 0, logged := 0,
    served := BySide.both false, stale := false, pendingCode := none, changedMedium := false,
    plan := BySide.both false, mirrored := false, waiter := none, sideFailure := BySide.both none,
    resolved := [], reservation := 0 }

/-- The finish of a held order is decided: its reservation is returned, its results and the phase
FINISHED are on their way, and the DONE bit follows them (R4, R24). A finish already decided stands. A
LATE finish at the close has its counters at their acceptance values (R98; log 37). -/
def Engine.decideFinish (x : Front) (e : Engine) (slot : Nat) (code : FinishCode) (late : Bool) : Engine :=
  match e.order? slot with
  | none => e
  | some o =>
    if o.finish.isSome then e
    else
      let e := (e.unreserve x slot).updOrder slot fun o =>
        { o with finish := some code, waiter := none, cursor := none, turn := none }
      let shown := if late then o.clearRun else o
      (e.writeResults x slot (shown.results code)).writePhase x slot phaseFinished
        (some (.doneBit slot o.fields.notify .leaves late))

/-- A run of a standing order ends and the order stays (R86). -/
def Engine.backToStanding (x : Front) (e : Engine) (slot : Nat) (code : FinishCode) : Engine :=
  match e.order? slot with
  | none => e
  | some o =>
    let e := (e.unreserve x slot).updOrder slot fun o => { o.clearRun with state := .waitingRound }
    (e.writeResults x slot (o.results code)).writePhase x slot phaseStanding
      (some (.doneBit slot o.fields.notify .stays false))

/-- A MEND's turn ends with mending left: it goes to the tail, QUEUED, with age 0 (R76). -/
def Engine.requeueMend (x : Front) (e : Engine) (slot : Nat) : Engine :=
  let e := (e.toTail slot).updOrder slot fun o =>
    { o with state := .queued, age := 0, turn := none, waiter := none,
             plan := BySide.both false, mirrored := false, sideFailure := BySide.both none }
  e.writePhase x slot phaseQueued none

/-- The code a run has earned (R21, R67 to R70, R72, R79, R112). A withdraw mark goes first, a medium change
second, for every kind as R70 has it for a PAIR WRITE (log 48). -/
def Order.endCode (o : Order) : FinishCode :=
  match o.withdrawMark with
  | some c => c
  | none =>
    if o.changedMedium then .mediumChanged
    else
      match o.pendingCode with
      | some (c, _) => c
      | none =>
        match o.sideFailure.a.or o.sideFailure.b with
        | some c => if o.kind = .seek ∨ o.kind = .recalibrate then c
                    else if o.mirrored && 0 < o.logged then .okOneSide
                    else if o.stale then .staleRead else .ok
        | none =>
          if o.mirrored && 0 < o.logged then .okOneSide
          else if o.stale then .staleRead
          else .ok

/-- What a MEND does when a turn has ended well (R76, R77), or when it finds no entries (R75). In
DRAINING, work left finishes it STOPPED (R28, R79). -/
def Engine.endTurn (x : Front) (e : Engine) (o : Order) : Engine :=
  let left (e : Engine) : Engine :=
    if x.ctl = .run then e.requeueMend x o.slot else e.decideFinish x o.slot .stopped false
  match (e.pairs.get o.pair).mode with
  | .attached =>
    if e.log.any (LogEntry.ofPair o.pair) then left e else e.decideFinish x o.slot .ok false
  | .detached =>
    let r := o.geometry x
    match o.turn with
    | none => left e
    | some t =>
      if t.track + 1 = r.cylinders * r.surfaces then
        (e.pairAttach x o.pair).decideFinish x o.slot .ok false
      else left (e.updOrder o.slot fun o => { o with cursor := some (t.track + 1) })

/-- The first sector of a mirrored READ that no side has done and a side has failed, when the run ends: its
code and place. It is left over when the side that read it good failed as a whole before its copy was
complete, after the other side had released the order (log 19). -/
def Order.leftFailure (x : Front) (o : Order) : Option (FinishCode × Place) :=
  if o.mirrored && o.kind == .read then
    (List.range (o.sectorCount x)).findSome? fun i =>
      if o.entry .A i == .done || o.entry .B i == .done then none
      else ((o.entry .A i).failure.or (o.entry .B i).failure).map fun code => (code, o.place x i)
  else none

/-- A run has ended: every channel has released the order. The remaining sectors are resolved, the run's
code is worked out, and the order is finished, returned to standing, or re-queued (R24, R86, R87). -/
def Engine.endRun (x : Front) (e : Engine) (slot : Nat) : Engine :=
  let e := e.resolveRest x slot
  let e : Engine := e.updOrder slot fun o =>
    { o with
      runs := if o.fields.standing then (o.runs + 1) % 256 else o.runs,
      pendingCode := o.pendingCode.or (o.leftFailure x) }
  match e.order? slot with
  | none => e
  | some o =>
    let code := o.endCode
    if o.finish.isSome then e
    else if o.kind = .mend ∧ code = .ok then e.endTurn x o
    else if o.fields.standing ∧ code.endsStanding = false then
      if x.ctl = .run then e.backToStanding x slot code else e.decideFinish x slot .stopped false
    else e.decideFinish x slot code false

end Sys2Proof.Machine
end

