-- ==== Sys2Proof/Machine/Release.lean ====
section
/-! DEFINITION. How a channel lets go: deselection and the unload timer, release of an order, clean points,
stops, pending failures, and a side failing as a whole (R65, R67, R104, R110, R115 to R118). -/

namespace Sys2Proof.Machine

/-- The timer's start at a deselection (R115). -/
def timerStart (loaded : Bool) (delay : Nat) : Timer :=
  if loaded then (if delay = 0 then .pending else .running delay) else .stopped

/-- HLD at a channel's clean point: it stays up for a selected drive whose record shows the head loaded, and is
dropped where it was raised in a load wait not completed (R110, R116), one that the join gave up for another
track included (log 64). -/
def Engine.keptLoad (e : Engine) (c : Side) : Bool :=
  (e.chan c).headLoad && ((e.chan c).selected.map fun p => (e.drive ⟨c, p⟩).loaded).getD true

/-- The channel deselects its drive: the sample run and the period end, the unload timer starts unless
the selection was a survey step's, and the status record is written (R104, R115, R145, R150, R153). A
load wait not completed drops HLD (R110, R116). -/
def Engine.deselect (x : Front) (e : Engine) (c : Side) (survey : Bool) (notice : Option Notice) : Engine :=
  let ch := e.chan c
  match ch.selected with
  | none => e
  | some p =>
    let d : Drive := ⟨c, p⟩
    let e := e.setChan c
      { ch with
        selected := none, writeGate := false, writeData := [], headLoad := e.keptLoad c }
    let e := if survey then e else e.setTimer d (timerStart (e.drive d).loaded (x.record d).unload)
    let k := e.drive d
    (e.setDrive d { k with sampleRun := 0, lastSample := none, timing := false }).writeStatus x d notice

/-- The channel's record of an order and of its track is given up; its buffers keep their bytes (R103,
R142). -/
def Channel.letGo (ch : Channel) : Channel :=
  { ch with
    order := none, run := Run.none, positioning := Positioning.none, act := .none, stopping := false,
    heldFailure := none, selectedWell := false, transfers := [], deferred := none,
    buffers := ⟨{ ch.buffers.a with use := .free }, { ch.buffers.b with use := .free }⟩ }

/-- The channel gives up what it has in hand and enters IDLE (R102, R116). -/
def Engine.toIdle (x : Front) (e : Engine) (c : Side) : Engine :=
  (e.updChan c Channel.letGo).enter x c .idle

/-- The channel releases its order; the run ends when no other channel holds it (R65, R116). -/
def Engine.release (x : Front) (e : Engine) (c : Side) : Engine :=
  match (e.chan c).order with
  | none => ((e.deselect x c false none).toIdle x c)
  | some slot =>
    let e := (e.deselect x c false none).toIdle x c
    if (e.chan c.other).order = some slot then e else e.endRun x slot

/-- What a channel does by waiting, with no field, step or track in hand (R116). -/
def Act.waits : Act → Bool
  | .none => true
  | .settling => true
  | .loading => true
  | .confirming _ => true
  | .holding => true
  | .seeking => true
  | .awaitIndex => true
  | .selecting => false
  | .stepping _ => false
  | .reading _ _ _ _ => false
  | .writing _ _ => false
  | .formatting _ => false
  | .surveying _ _ => false
  | .ending => false

/-- The channel only waits, and makes no unload touch: the clean point of R116 has come. -/
def Channel.waits (ch : Channel) : Bool := ch.act.waits && ch.touch.isNone

/-- A good sector in a buffer is still on its way to memory: it is copied before the channel releases
(R116). -/
def Channel.copying (ch : Channel) : Bool := ch.transfers.any Transfer.toHost

/-- A channel that has come to its clean point with a copy on its way waits for nothing else: it begins no
field and no step, and drops the HLD of a load wait (R116, R117). -/
def Engine.rest (e : Engine) (c : Side) : Engine :=
  e.updChan c fun ch => { ch with act := .none, headLoad := e.keptLoad c }

/-- A channel asked to stop does so at its clean point, after the copies still on their way (R116, R117). -/
def Engine.tryClean (x : Front) (e : Engine) (c : Side) : Engine :=
  if (e.chan c).stopping && (e.chan c).waits then
    if (e.chan c).copying then e.rest c else e.release x c
  else e

/-- One channel, if it holds the order, is asked to stop. -/
def Engine.stopChannel (x : Front) (e : Engine) (c : Side) (slot : Nat) : Engine :=
  if (e.chan c).order = some slot then
    (e.updChan c fun ch => { ch with stopping := true }).tryClean x c
  else e

/-- Every channel running an order is asked to stop at its next clean point (R117). -/
def Engine.stopOrder (x : Front) (e : Engine) (slot : Nat) : Engine :=
  (e.stopChannel x .A slot).stopChannel x .B slot

/-- The channel waiting for a BOUND-WAIT order is released: one that has not yet begun simply forgets it,
the other returns to IDLE at its next clean point (R53, R114). -/
def Engine.freeWaiter (x : Front) (e : Engine) (c : Side) (slot : Nat) : Engine :=
  if (e.chan c).order ≠ some slot then e
  else if (e.chan c).deferred = some .partnerWait then
    e.updChan c fun ch => { ch with order := none, deferred := none, act := .none }
  else
    (e.updChan c fun ch => { ch with order := none, stopping := true }).tryClean x c

/-- An order that waits is finished at once, and a channel in PARTNER_WAIT for it is released (R20, R27 to
R29, R98). -/
def Engine.finishWaiting (x : Front) (e : Engine) (slot : Nat) (code : FinishCode) (late : Bool) : Engine :=
  match e.order? slot with
  | none => e
  | some o =>
    let e := e.decideFinish x slot code late
    match o.waiter with
    | none => e
    | some c => e.freeWaiter x c slot

/-- A failure is recorded as the order's pending finish, the first one standing, and the channels running
the order stop (R67, R69, R141). -/
def Engine.setPending (x : Front) (e : Engine) (slot : Nat) (code : FinishCode) (pl : Place) : Engine :=
  (e.updOrder slot fun o =>
    { o with pendingCode := if o.pendingCode.isSome then o.pendingCode else some (code, pl) }).stopOrder x slot

/-- No place: for codes that carry no fail location. -/
def Place.origin : Place := { cylinder := 0, surface := 0, sector := 0 }

/-- A report on one sector of a mirrored order reaches the pair manager (R66 to R72). -/
def Engine.resolve (x : Front) (e : Engine) (slot i : Nat) : Engine :=
  match e.order? slot with
  | none => e
  | some o =>
    match e.resolveOnce x slot i false with
    | (e, none) => e
    | (e, some code) => e.setPending x slot code (o.place x i)

/-- Every sector of an order is put to the pair manager, in logical order (R69). -/
def Engine.resolveAll (x : Front) (e : Engine) (slot : Nat) : Engine :=
  match e.order? slot with
  | none => e
  | some o => (List.range (o.sectorCount x)).foldl (fun e i => e.resolve x slot i) e

/-- An entry not yet done is failed with a code, whatever code it had failed with before (R65); one that is
written and not yet verified is not done (log 28). -/
def Entry.failWith (code : FinishCode) : Entry → Entry
  | .done => .done
  | .failed _ => .failed code
  | .notBegun => .failed code
  | .copying => .failed code
  | .written => .failed code

/-- Every sector of a side not yet done is marked failed (R65). -/
def Order.failEntries (o : Order) (c : Side) (code : FinishCode) : Order :=
  { o with progress := o.progress.set c ((o.progress.get c).map (Entry.failWith code)) }

/-- The sectors of a mirrored READ whose good copies on this side are still on their way to memory: the
copies are given up when the side fails as a whole (R118; log 19). A copy of such a sector that the other side
has read later and discarded (R66) is not taken up again (log 19). -/
def Order.copiesOpen (x : Front) (o : Order) (c : Side) : List Nat :=
  if o.mirrored && o.kind == .read then
    (List.range (o.sectorCount x)).filter fun i => o.entry c i == .copying
  else []

/-- Sectors passed over because the other side had them are wanted again (R66; log 19). -/
def Item.wantAgain (opened : List Nat) (it : Item) : Item :=
  if it.st = .withdrawn ∧ it.pos ∈ opened then { it with st := .wanted, pulses := 0, badId := false } else it

/-- A side fails as a whole, and its channel releases the order (R65, R118). A ONE order, and a PAIR order
on the kept side alone, ends with the code; a MEND ends; a mirrored order goes on on the other side. A
mirrored READ's copies in flight are given up; the sectors the other side had passed over are wanted again,
those it had read and discarded are not (log 19). -/
def Engine.failSide (x : Front) (e : Engine) (c : Side) (code : FinishCode) : Engine :=
  match (e.chan c).order with
  | none => e
  | some slot =>
    let e := e.updChan c fun ch =>
      { ch with
        act := .ending, writeGate := false, writeData := [], transfers := [] }
    let opened := ((e.order? slot).map fun o => o.copiesOpen x c).getD []
    let e : Engine :=
      if (e.chan c.other).order = some slot then
        e.updChan c.other fun ch =>
          { ch with run := { ch.run with items := ch.run.items.map (Item.wantAgain opened) } }
      else e
    let e : Engine := e.updOrder slot fun o =>
      let o := o.failEntries c code
      { o with sideFailure := o.sideFailure.set c ((o.sideFailure.get c).or (some code)) }
    let e : Engine :=
      match e.order? slot with
      | none => e
      | some o =>
        if o.kind = .mend then e.setPending x slot code Place.origin
        else if o.mirrored then
          if o.kind = .seek ∨ o.kind = .recalibrate then e else e.resolveAll x slot
        else e.setPending x slot code Place.origin
    e.release x c

/-- The head of a drive unloads (R115): the record follows, and the lamp with it. -/
def Engine.headUnloaded (x : Front) (e : Engine) (d : Drive) : Engine :=
  e.updDrive x d fun k => { k with loaded := false }

end Sys2Proof.Machine
end

