-- ==== Sys2Proof/Machine/Lines.lean ====
section
/-! DEFINITION. What the drive line unit makes of a drive's lines while it is selected: samples, ready
levels, periods, speed faults and medium changes, and how they reach the roster, the pair manager, the
channel and the survey unit (R27, R73, R104, R113, R118, R144 to R152, R158, R159). -/

namespace Sys2Proof.Machine

/-! ### The survey unit's passes (R156, R158, R159) -/

/-- The lowest drive of a mask with a number of at least `n`. -/
def nextDrive (mask : ByDrive Bool) (n : Nat) : Option Drive :=
  Drive.all.find? fun d => mask.drive d && decide (n ≤ d.number)

/-- A pass begins: the next drive is the lowest of the latched mask (R156). -/
def Survey.beginPass (v : Survey) : Survey := { v with next := nextDrive v.mask 0, waiting := 0 }

/-- The drive after a step, or none when the step was for the highest drive of the mask (R159). -/
def Survey.afterStep (v : Survey) (d : Drive) : Option Drive := nextDrive v.mask (d.number + 1)

/-- The end of a pass (R159). -/
def Survey.endPass (v : Survey) : Survey :=
  match v.request with
  | some (m, k) => { v with mode := m, mask := k, request := none }.beginPass
  | none =>
    match v.mode with
    | .loop => v.beginPass
    | .once => { v with mode := .off, next := none, waiting := 0 }
    | .off => { v with next := none, waiting := 0 }

/-- The step in hand has ended with its survey still under way: the unit moves on (R159). -/
def Survey.stepEnded (v : Survey) (d : Drive) : Survey :=
  let v := { v with step := none }
  match v.afterStep d with
  | some n => { v with next := some n, waiting := 0 }
  | none => v.endPass

/-- The drive of the step that a channel runs: one of a survey already ended, or the one in hand. -/
def Survey.stepOn (v : Survey) (c : Side) : Option Drive :=
  (v.orphans.get c).or (v.step.filter fun d => d.side == c)

/-- The step a channel runs is the last of its pass (R159). -/
def Survey.lastStep (v : Survey) (d : Drive) : Bool := (v.orphans.get d.side).isNone && (v.afterStep d).isNone

/-- A survey ends without SURVEY_DONE; a step in hand runs on as an orphan of its channel (R159), one that its
channel has taken during an unload touch and not begun included (log 57). -/
def Survey.stop (v : Survey) : Survey :=
  { v with mode := .off, mask := BySide.allDrives false, request := none, next := none, waiting := 0,
           step := none,
           orphans := match v.step with
             | some d => v.orphans.set d.side (some d)
             | none => v.orphans }

/-- The header fields differ (R155). -/
def Survey.fieldsDiffer (a b : Survey) : Bool :=
  a.mode != b.mode || a.mask != b.mask || a.request != b.request

/-- The survey unit changes, and writes its fields where they differ (R155). -/
def Engine.setSurvey (x : Front) (e : Engine) (v : Survey) : Engine :=
  let w := e.survey.fieldsDiffer v
  let e := { e with survey := v }
  if w then e.writeSurvey x else e

/-- A survey step ends (R158, R159): the channel deselects the drive, the survey round and the status
record are written, the channel returns to IDLE, and the unit moves on unless its survey has ended. -/
def Engine.endSurveyStep (x : Front) (e : Engine) (c : Side) : Engine :=
  match e.survey.stepOn c with
  | none => e
  | some d =>
    let notice := if e.survey.lastStep d then some Notice.surveyDone else none
    let e := e.setDrive d { (e.drive d) with surveyRound := some x.round }
    let e := (e.deselect x c true notice).toIdle x c
    if (e.survey.orphans.get c).isSome then
      e.setSurvey x { e.survey with orphans := e.survey.orphans.set c none }
    else e.setSurvey x (e.survey.stepEnded d)

/-! ### A drive leaves READY (R113, R118, R158) -/

/-- A failure met in early positioning is held (R113). -/
def Engine.holdFailure (x : Front) (e : Engine) (c : Side) (code : FinishCode) : Engine :=
  (e.deselect x c false none).updChan c fun ch =>
    { ch with heldFailure := some code, act := .holding }

/-- The channel that has the drive selected takes note that it has left READY (R113, R118, R158). During
the selection itself the channel waits for the sample's end (R104). In PARTNER_WAIT with its bound order
already finished, no order's side is left to fail: the channel goes on to its clean point (R114; log 49). -/
def Engine.leaveReady (x : Front) (e : Engine) (d : Drive) (code : FinishCode) : Engine :=
  let ch := e.chan d.side
  if ch.selected = some d.pair ∧ ch.act ≠ .selecting then
    match ch.state with
    | .surveyStep => e.endSurveyStep x d.side
    | .partnerWait =>
      if ch.stopping then e.tryClean x d.side
      else e.holdFailure x d.side code
    | .positioning => e.failSide x d.side code
    | .trackPass => e.failSide x d.side code
    | .verifyPass => e.failSide x d.side code
    | .idle => e
    | .stopped => e
  else e

/-! ### Medium changes (R27, R73, R152) -/

/-- One held order meets a new generation of a drive (R27). -/
def Engine.meetChange (x : Front) (e : Engine) (d : Drive) (slot : Nat) : Engine :=
  match e.order? slot with
  | none => e
  | some o =>
    if o.finish.isSome || !(o.covers d) || (o.generation.get d.side) == some (e.drive d).generation then e
    else
      match o.state with
      | .queued => e.finishWaiting x slot .mediumChanged false
      | .boundWait => e.finishWaiting x slot .mediumChanged false
      | .waitingRound => e.finishWaiting x slot .mediumChanged false
      | .running => (e.updOrder slot fun o => { o with changedMedium := true }).stopOrder x slot

/-- The roster takes a drive's new generation, order by order in post order (R24, R27). -/
def Engine.rosterChange (x : Front) (e : Engine) (d : Drive) : Engine :=
  (e.held.map Order.slot).foldl (fun e slot => e.meetChange x d slot) e

/-- A medium change is recorded on a drive: generation, roster, pair manager, status record, and DRIVEn
when that has been written (R152). -/
def Engine.mediumChange (x : Front) (e : Engine) (d : Drive) : Engine :=
  let e := e.setDrive d { (e.drive d) with generation := (e.drive d).generation + 1 }
  ((e.rosterChange x d).pairChange x d).writeStatus x d (some (.attention d))

/-! ### Ready levels (R144, R146, R154) -/

/-- DRIVEn is set for a ready edge in that direction (R154). -/
def EdgeMode.tells (m : EdgeMode) (toReady : Bool) : Bool :=
  match m with
  | .none => false
  | .toReady => toReady
  | .toNotReady => !toReady
  | .both => true

/-- The knowledge changes state, its status record is written, and DRIVEn follows where `tell` (R144,
R153, R154). Becoming READY, the next counted pulse starts a period (R150); becoming NOT_READY or
crossing between READY and OFF_SPEED clears the speed counts (R151). -/
def Engine.setState (x : Front) (e : Engine) (d : Drive) (st : DriveState) (tell : Bool) : Engine :=
  let k := e.drive d
  (e.setDrive d
    { k with
      state := st, outCount := 0, inCount := 0,
      timing := if st = .ready ∧ k.state ≠ .offSpeed then false else k.timing }).writeStatus x d
    (if tell then some (.attention d) else none)

/-- A ready level is taken into the record (R144, R146). -/
def Engine.takeLevel (x : Front) (e : Engine) (d : Drive) (level : Bool) : Engine :=
  let k := e.drive d
  let tell := (x.record d).edge.tells level
  let e := e.setDrive d { k with held := some level, sampleRun := 0 }
  if level then
    match k.state with
    | .unknown => e.setState x d .ready tell
    | .notReady =>
      (e.setDrive d { (e.drive d) with state := .ready, timing := false }).mediumChange x d
    | .ready => e
    | .offSpeed => e
    | .unconfigured => e
  else
    match k.state with
    | .unknown => e.setState x d .notReady tell
    | .ready => (e.setState x d .notReady tell).leaveReady x d .notReady
    | .offSpeed => e.setState x d .notReady tell
    | .notReady => e
    | .unconfigured => e

/-- Consecutive samples needed before a level is taken (R146). -/
def DriveRecord.samplesNeeded (r : DriveRecord) : Nat := if r.debounce then 3 else 1

/-- The sample run after one sample (R146). -/
def Knowledge.runAfter (k : Knowledge) (level : Bool) : Nat :=
  match k.held with
  | some h => if level = h then 0 else k.sampleRun + 1
  | none => if k.lastSample = some level then k.sampleRun + 1 else 1

/-- One sample of the ready line (R146). -/
def Engine.sampleReady (x : Front) (e : Engine) (d : Drive) (level : Bool) : Engine :=
  let k := e.drive d
  let run := k.runAfter level
  let e := e.setDrive d { k with sampleRun := run, lastSample := some level }
  if (x.record d).samplesNeeded ≤ run then e.takeLevel x d level else e

/-- The write-protect and track-0 lines, and the two-sided sense, are taken without debounce (R145, R147). -/
def Engine.sampleFlags (x : Front) (e : Engine) (d : Drive) (l : Lines) : Engine :=
  e.updDrive x d fun k =>
    { k with
      writeProtected := l.wprt, track0 := l.trk0,
      twoSided := if (x.record d).aux = .twoSidedSense then l.aux else k.twoSided,
      aux := if (x.record d).aux = .twoSidedSense then l.aux else k.aux }

/-- The change sense is sampled at the selection sample alone (R145, R152). -/
def Engine.sampleChange (x : Front) (e : Engine) (d : Drive) (l : Lines) : Engine :=
  if (x.record d).aux = .changeSense then
    let e := e.changeDrive x d fun k => { k with aux := l.aux }
    if l.aux then e.mediumChange x d else e
  else e

/-- The selection sample, from the levels the lines carry at that moment (R145). -/
def Engine.selectionSample (x : Front) (e : Engine) (d : Drive) : Engine :=
  let l := x.pins.drive d
  ((e.sampleChange x d l).sampleReady x d l.ready).sampleFlags x d l

/-- The channel selects a drive: the select line, the last-selected drive, the timer, HLD at the recorded
head state, and the selection sample (R104, R105, R115, R145). -/
def Engine.select (x : Front) (e : Engine) (c : Side) (p : PairId) (survey : Bool) : Engine :=
  let d : Drive := ⟨c, p⟩
  let e := e.updChan c fun ch =>
    { ch with
      selected := some p, lastSelected := some p, act := .selecting, headLoad := (e.drive d).loaded,
      writeGate := false }
  let e := if survey then e else e.setTimer d .stopped
  let k := e.drive d
  (e.setDrive d { k with sampleRun := 0, lastSample := none, timing := false }).selectionSample x d

/-! ### Speed (R150, R151) -/

/-- The period is in the accepted range (R151). -/
def periodInRange (n : Nat) : Bool := decide (Config.periodLow ≤ n) && decide (n ≤ Config.periodHigh)

/-- The drive becomes OFF_SPEED: DRIVEn follows, and the channel takes note (R151, R154). -/
def Engine.speedFault (x : Front) (e : Engine) (d : Drive) : Engine :=
  (e.setState x d .offSpeed true).leaveReady x d .offSpeed

/-- A measured period is judged (R151). -/
def Engine.judgePeriod (x : Front) (e : Engine) (d : Drive) (n : Nat) : Engine :=
  let k := e.drive d
  match k.state with
  | .ready =>
    if periodInRange n then e.setDrive d { k with outCount := 0 }
    else if k.outCount + 1 < 2 then e.setDrive d { k with outCount := k.outCount + 1 }
    else e.speedFault x d
  | .offSpeed =>
    if periodInRange n then
      if k.inCount + 1 < 2 then e.setDrive d { k with inCount := k.inCount + 1 }
      else e.setState x d .ready false
    else e.setDrive d { k with inCount := 0 }
  | .unknown => e
  | .notReady => e
  | .unconfigured => e

/-- A counted index pulse reaches the drive line unit (R150): a period ends where one was being timed, and
the next begins. -/
def Engine.countPulse (x : Front) (e : Engine) (d : Drive) (elapsed : Nat) : Engine :=
  let k := e.drive d
  if k.state = .ready ∨ k.state = .offSpeed then
    if k.timing then
      let n := min 65535 elapsed
      (e.setDrive d { k with period := n }).judgePeriod x d n
    else e.setDrive d { k with timing := true }
  else e

/-- The fault code of a drive that is not READY (R65, R104). -/
def DriveState.faultCode : DriveState → FinishCode
  | .offSpeed => .offSpeed
  | .ready => .notReady
  | .unknown => .notReady
  | .notReady => .notReady
  | .unconfigured => .notReady

end Sys2Proof.Machine
end

