-- ==== Sys2Proof/Machine/Positioning.lean ====
section
/-! DEFINITION. Positioning: recalibrate, seek, settle, head load and confirm (R107 to R113). What follows
a confirm belongs to the passes (Passes). -/

namespace Sys2Proof.Machine

/-- The drive a channel has selected. -/
def Engine.selectedDrive? (e : Engine) (c : Side) : Option Drive :=
  (e.chan c).selected.map fun p => ⟨c, p⟩

/-- The kind of the order a channel has in hand. -/
def Engine.kindOf? (e : Engine) (c : Side) : Option Kind := (e.orderOf? c).map Order.kind

/-- Change what a channel is doing. -/
def Engine.setAct (e : Engine) (c : Side) (a : Act) : Engine :=
  e.updChan c fun ch => { ch with act := a }

/-- Change a channel's positioning. -/
def Engine.updPositioning (e : Engine) (c : Side) (f : Positioning → Positioning) : Engine :=
  e.updChan c fun ch => { ch with positioning := f ch.positioning }

/-- Change a channel's track in hand. -/
def Engine.updRun (e : Engine) (c : Side) (f : Run → Run) : Engine :=
  e.updChan c fun ch => { ch with run := f ch.run }

/-- A failure of positioning: held in PARTNER_WAIT, otherwise the side fails as a whole (R108, R111, R113). -/
def Engine.failPositioning (x : Front) (e : Engine) (c : Side) (code : FinishCode) : Engine :=
  if (e.chan c).state = .partnerWait then e.holdFailure x c code else e.failSide x c code

/-- The confirm begins, with SSEL on the target surface (R111). -/
def Engine.beginConfirm (e : Engine) (c : Side) : Engine :=
  e.updChan c fun ch =>
    { ch with surfaceOne := ch.positioning.surface == 1, act := .confirming 0 }

/-- The head stands on the target cylinder and no settle is to come: the head is loaded and the cylinder
confirmed for the kinds that load it; a SEEK or RECALIBRATE ends its run, or is held (R107, R110, R112,
R113), with SSEL as last driven, since these kinds name no surface (log 59). -/
def Engine.settled (x : Front) (e : Engine) (c : Side) : Engine :=
  match e.selectedDrive? c, e.kindOf? c with
  | some d, some k =>
    if k.loadsHead then
      if (e.drive d).loaded then e.beginConfirm c
      else e.updChan c fun ch => { ch with headLoad := true, act := .loading }
    else if (e.chan c).positioning.why = .early then e.setAct c .holding
    else e.release x c
  | _, _ => e

/-- The last step has been taken: the settle follows when there was a step (R109). -/
def Engine.arrived (x : Front) (e : Engine) (c : Side) : Engine :=
  if (e.chan c).positioning.stepped then e.setAct c .settling else e.settled x c

/-- A seek from the known cylinder (R109). -/
def Engine.beginSeek (x : Front) (e : Engine) (c : Side) : Engine :=
  match e.selectedDrive? c with
  | none => e
  | some d =>
    let v := (e.drive d).cylinder.getD 0
    let t := (e.chan c).positioning.target
    if v = t then e.arrived x c
    else
      e.updChan c fun ch =>
        { ch with
          dirInward := decide (v < t), act := .stepping false,
          positioning := { ch.positioning with stepped := true } }

/-- The channel samples the track-0 line of its selected drive (R108, R145). -/
def Engine.sampleTrack0 (x : Front) (e : Engine) (d : Drive) (level : Bool) : Engine :=
  e.changeDrive x d fun k => { k with track0 := level }

/-- Track 0 has been found: cylinder 0 is known (R108). -/
def Engine.atTrack0 (x : Front) (e : Engine) (d : Drive) : Engine :=
  e.updDrive x d fun k => { k with cylinder := some 0 }

/-- A recalibrate begins (R108). -/
def Engine.beginRecalibrate (x : Front) (e : Engine) (c : Side) : Engine :=
  match e.selectedDrive? c with
  | none => e
  | some d =>
    let e := e.updDrive x d fun k => { k with cylinder := none }
    let e : Engine := e.updChan c fun ch =>
      { ch with dirInward := false, positioning := { ch.positioning with steps := 0 } }
    let level := (x.pins.drive d).trk0
    let e := e.sampleTrack0 x d level
    if level then (e.atTrack0 x d).beginSeek x c
    else
      e.updChan c fun ch =>
        { ch with
          act := .stepping true,
          positioning := { ch.positioning with steps := 1, stepped := true } }

/-- A positioning begins: a recalibrate when it is forced, the cylinder is not known or the order is a
RECALIBRATE, otherwise the seek (R107). The marker of the place on the track is given up with the move. -/
def Engine.startPositioning (x : Front) (e : Engine) (c : Side) (why : PosWhy) (target surface : Nat)
    (forced : Bool) : Engine :=
  match e.selectedDrive? c with
  | none => e
  | some d =>
    let e : Engine := e.updChan c fun ch =>
      { ch with
        act := .ending,
        positioning := { why := why, target := target, surface := surface, steps := 0, stepped := false,
                         again := false },
        run := { ch.run with lastId := none } }
    if forced || (e.drive d).cylinder.isNone || e.kindOf? c == some .recalibrate then
      e.beginRecalibrate x c
    else e.beginSeek x c

/-- One step of a recalibrate has ended, with the track-0 level then seen (R108). -/
def Engine.recalibrateStep (x : Front) (e : Engine) (c : Side) (d : Drive) (level : Bool) : Engine :=
  let e := e.sampleTrack0 x d level
  let e := if level then e.atTrack0 x d else e
  if (e.chan c).stopping then (e.setAct c .none).tryClean x c
  else if level then e.beginSeek x c
  else if Config.recalibrateSteps ≤ (e.chan c).positioning.steps then
    (e.setAct c .none).failPositioning x c .noTrack0
  else e.updPositioning c fun p => { p with steps := p.steps + 1 }

/-- One step of a seek has ended: the drive line unit is handed the new cylinder (R109). -/
def Engine.seekStep (x : Front) (e : Engine) (c : Side) (d : Drive) : Engine :=
  let inward := (e.chan c).dirInward
  let e : Engine := e.changeDrive x d fun k =>
    { k with cylinder := k.cylinder.map fun v => if inward then v + 1 else v - 1 }
  if (e.chan c).stopping then (e.setAct c .none).tryClean x c else e.beginSeek x c

/-- The step time of the step in progress ends (R108, R109). -/
def Engine.stepEnd (x : Front) (e : Engine) (c : Side) (trk0 : Bool) : Engine :=
  match (e.chan c).act, e.selectedDrive? c with
  | .stepping true, some d => e.recalibrateStep x c d trk0
  | .stepping false, some d => e.seekStep x c d
  | _, _ => e

/-- The settle time ends (R109). -/
def Engine.settleEnd (x : Front) (e : Engine) (c : Side) : Engine :=
  if (e.chan c).act = .settling then e.settled x c else e

/-- The head load time ends: the head counts as loaded, and the confirm begins (R110). -/
def Engine.loadEnd (x : Front) (e : Engine) (c : Side) : Engine :=
  match (e.chan c).act, e.selectedDrive? c with
  | .loading, some d => (e.updDrive x d fun k => { k with loaded := true }).beginConfirm c
  | _, _ => e

/-- The confirm has read another cylinder than the target: once more with a recalibrate, then SEEK_ERROR
(R111; log 40). -/
def Engine.confirmDiffers (x : Front) (e : Engine) (c : Side) : Engine :=
  match e.selectedDrive? c with
  | none => e
  | some d =>
    if (e.chan c).positioning.again then
      ((e.setAct c .none).updDrive x d fun k => { k with cylinder := none }).failPositioning x c .seekError
    else
      let e : Engine := e.updPositioning c fun p => { p with again := true, stepped := false }
      e.beginRecalibrate x c

end Sys2Proof.Machine
end

