-- ==== Sys2Proof/Machine/Passes.lean ====
section
/-! DEFINITION. The tracks of an order: the tests before the first transfer, wanted sets, the filling of
buffers, the end of a pass, the retry ladder and failed sectors (R66, R75 to R79, R127 to R130, R135,
R137 to R140). -/

namespace Sys2Proof.Machine

/-! ### The wanted set (R128) -/

/-- A fresh item of a track. -/
def Item.fresh (pos sector : Nat) (write : Bool) : Item :=
  { pos := pos, sector := sector, write := write, st := .wanted, tries := 0, pulses := 0, badId := false,
    mark := dataMark }

/-- An entry that the pair manager takes as reported good, for a PAIR READ (R66). -/
def Entry.reported : Entry → Bool
  | .done => true
  | .copying => true
  | .notBegun => false
  | .written => false
  | .failed _ => false

/-- A side works a sector: it is not begun there, the pair manager does not bar it, and for a mirrored READ
the other side has not done it (R66, R128). -/
def Engine.works (x : Front) (e : Engine) (o : Order) (c : Side) (i : Nat) : Bool :=
  o.entry c i == .notBegun &&
  (!(o.fields.pairCopy && (o.kind == .read || o.kind == .check)) || e.mayUse o (o.place x i) c) &&
  !(o.mirrored && o.kind == .read && (o.entry c.other i).reported)

/-- The items of a track (R128; for a MEND the read and write sets of R76; for a FORMAT every sector). -/
def Engine.itemsOf (x : Front) (e : Engine) (o : Order) (c : Side) (track : Nat) : List Item :=
  match o.kind with
  | .format =>
    (List.range (o.sectorCount x)).map fun i => Item.fresh i ((o.geometry x).firstSector + i) true
  | .mend =>
    match o.turn with
    | none => []
    | some t => t.set.map fun p => Item.fresh (p.1 - (o.geometry x).firstSector) p.1 (p.2 != c)
  | .read => work o.kind.writes
  | .write => work o.kind.writes
  | .check => work o.kind.writes
  | .retire => work o.kind.writes
  | .seek => []
  | .recalibrate => []
  | .lock => []
  | .unlock => []
  | .detach => []
where
  work (write : Bool) : List Item :=
    ((List.range (o.sectorCount x)).filter fun i => o.trackAt x i == track && e.works x o c i).map fun i =>
      Item.fresh i (o.place x i).sector write

/-- The side's first track (R107, R128): a MEND's is its turn's. -/
def Order.firstTrack (x : Front) (o : Order) : Nat :=
  match o.kind with
  | .mend => (o.turn.map Turn.track).getD 0
  | .seek => trackOf (o.geometry x) o.fields.cylinder 0
  | .recalibrate => 0
  | .read => o.trackAt x 0
  | .write => o.trackAt x 0
  | .check => o.trackAt x 0
  | .format => o.trackAt x 0
  | .retire => o.trackAt x 0
  | .lock => 0
  | .unlock => 0
  | .detach => 0

/-- Cylinder and surface of a track. -/
def trackCylinder (r : DriveRecord) (t : Nat) : Nat := t / r.surfaces
def trackSurface (r : DriveRecord) (t : Nat) : Nat := t % r.surfaces

/-- The next track of the order for a side (R128). A mirrored READ also goes back to a track with sectors
that it had passed over and that are wanted again (log 19). -/
def Engine.nextTrack? (x : Front) (e : Engine) (o : Order) (c : Side) (track : Nat) : Option Nat :=
  if o.kind.hasRun then
    if track < o.lastTrack x then some (track + 1)
    else if o.mirrored && o.kind == .read then
      (List.range (o.lastTrack x + 1)).find? fun t => !(e.itemsOf x o c t).isEmpty
    else none
  else none

/-! ### Items of the track in hand -/

/-- Change the item of a position, on the read or the write set. -/
def Engine.updItem (e : Engine) (c : Side) (pos : Nat) (f : Item → Item) : Engine :=
  e.updRun c fun r => { r with items := r.items.map fun it => if it.pos = pos then f it else it }

/-- Every search begins anew (R138). -/
def Item.searchAnew (it : Item) : Item := { it with pulses := 0, badId := false }

/-- Begin every search of the track anew. -/
def Engine.searchAnew (e : Engine) (c : Side) : Engine :=
  e.updRun c fun r => { r with items := r.items.map Item.searchAnew }

/-- The item is being sought in the pass in hand: in a track pass what is wanted; in a verify pass what is
to be read back, and what a WRITE or RETIRE is to rewrite (R137, R138). -/
def Item.sought (verify : Bool) (k : Kind) (it : Item) : Bool :=
  match it.st with
  | .wanted => !verify || !(k == .mend || k == .format)
  | .written => verify
  | .copying => false
  | .holding => false
  | .passed => false
  | .good => false
  | .failed => false
  | .withdrawn => false

/-- The item keeps the pass in hand going (R128, R137). -/
def Item.open (verify : Bool) (k : Kind) (it : Item) : Bool :=
  it.sought verify k || it.st == .copying || (it.st == .holding && !verify)

/-! ### Buffers (R103, R129, R130) -/

/-- What a buffer is used for. -/
def Channel.use (ch : Channel) (b : Side) : BufferUse := (ch.buffers.get b).use

/-- Change one buffer. -/
def Channel.setBuffer (ch : Channel) (b : Side) (v : SectorBuffer) : Channel :=
  { ch with buffers := ch.buffers.set b v }

/-- A buffer is freed, its bytes left as they are. -/
def Channel.freeBuffer (ch : Channel) (b : Side) : Channel :=
  ch.setBuffer b { ch.buffers.get b with use := .free }

/-- The buffer a data field goes into: the one that did not take the field before, or the other (R129). -/
def Channel.readBuffer? (ch : Channel) : Option Side :=
  if ch.use ch.lastBuffer.other = .free then some ch.lastBuffer.other
  else if ch.use ch.lastBuffer = .free then some ch.lastBuffer
  else none

/-- A buffer that is fetching or holds the data of a position for a write. -/
def BufferUse.forWrite (pos : Nat) : BufferUse → Bool
  | .fetching p => p == pos
  | .ready p _ => p == pos
  | .free => false
  | .reading => false
  | .copying _ => false
  | .holding _ _ => false

/-- A buffer holds the data of a position wholly, with its mark. -/
def Channel.readyBuffer? (ch : Channel) (pos : Nat) : Option (Side × Byte) :=
  [Side.A, Side.B].findSome? fun b =>
    match ch.use b with
    | .ready p m => if p = pos then some (b, m) else none
    | _ => none

/-- The channel holds a MEND read not yet passed across (R76). -/
def Channel.holds? (ch : Channel) : Option Side :=
  [Side.A, Side.B].find? fun b =>
    match ch.use b with
    | .holding _ _ => true
    | _ => false

/-- Host address of a position's data (R129, R130). -/
def Order.dataAddress (x : Front) (o : Order) (pos : Nat) : Nat :=
  o.fields.buffer + pos * (o.geometry x).size

/-- How far a sector lies after the last recognised one in rotation (R130). A recognised ID field whose sector
number is none of the track's marks a place too (R126): its number counts modulo the sectors of the track, so
that it stands where the track's own sector of the same remainder does (log 62). -/
def rotation (n last sector : Nat) : Nat := (sector + 256 * n - last - 1) % n

/-- The wanted item that comes next in rotation, of those not held in a buffer (R130). -/
def Channel.nextFetch? (ch : Channel) (n last : Nat) : Option Item :=
  let left := ch.run.items.filter fun it =>
    it.st == .wanted && !((ch.use .A).forWrite it.pos) && !((ch.use .B).forWrite it.pos)
  left.foldl (fun best it =>
    match best with
    | none => some it
    | some b => if rotation n last it.sector < rotation n last b.sector then some it else best) none

/-- A free buffer of a WRITE is filled with the next sector's data: the fetch is asked of the port (R130). -/
def Engine.fillBuffer (x : Front) (e : Engine) (c : Side) (b : Side) : Engine :=
  let ch := e.chan c
  match e.orderOf? c, ch.run.lastId with
  | some o, some last =>
    if o.kind = .write ∧ (ch.state = .trackPass ∨ ch.state = .verifyPass) ∧ ch.stopping = false ∧
        ch.use b = .free then
      match ch.nextFetch? (o.geometry x).sectors last with
      | none => e
      | some it =>
        e.setChan c
          { ch.setBuffer b { ch.buffers.get b with use := .fetching it.pos } with
            transfers := ch.transfers ++
              [{ buf := b, toHost := false, pos := it.pos, addr := o.dataAddress x it.pos,
                 words := (o.geometry x).size / 2, moved := 0 }] }
    else e
  | _, _ => e

/-- Both buffers are kept filled, as far as the wanted set allows (R130). -/
def Engine.fillBuffers (x : Front) (e : Engine) (c : Side) : Engine :=
  (e.fillBuffer x c .A).fillBuffer x c .B

/-- The data kept for a sector's write is given up. -/
def Channel.dropData (ch : Channel) (pos : Nat) : Channel :=
  [Side.A, Side.B].foldl (fun ch b =>
    match ch.use b with
    | .ready p _ => if p = pos then ch.freeBuffer b else ch
    | _ => ch) ch

/-! ### Counts (R142) -/

/-- Add 1 to a count that saturates at 255. -/
def sat255 (n : Nat) : Nat := min 255 (n + 1)

def Engine.countRetry (e : Engine) (slot : Nat) : Engine :=
  e.updOrder slot fun o => { o with retries := sat255 o.retries }

def Engine.countMissed (e : Engine) (slot : Nat) : Engine :=
  e.updOrder slot fun o => { o with missed := sat255 o.missed }

def Engine.countRetired (e : Engine) (slot : Nat) : Engine :=
  e.updOrder slot fun o => { o with retiredMet := sat255 o.retiredMet }

/-- Sectors done, up to 65535 (R25). -/
def Engine.countDone (e : Engine) (slot : Nat) : Engine :=
  e.updOrder slot fun o => { o with sectorsDone := min 65535 (o.sectorsDone + 1) }

/-- A progress entry changes. -/
def Engine.mark (e : Engine) (slot : Nat) (c : Side) (pos : Nat) (v : Entry) : Engine :=
  e.updOrder slot fun o => o.setEntry c pos v

/-- A side has done a sector of a writing kind or a CHECK: a mirrored order's sector goes to the pair
manager, another's is counted (R25, R69, R72). -/
def Engine.sectorDone (x : Front) (e : Engine) (o : Order) (c : Side) (pos : Nat) : Engine :=
  let e := e.mark o.slot c pos .done
  if o.mirrored then e.resolve x o.slot pos else e.countDone o.slot

/-- A FORMAT's sector has read back good, or been written without VERIFY: it is done on this side (R135,
R137). A ONE FORMAT counts it at once (R142); a sector of a PAIR FORMAT is counted where the pair manager
resolves it, when both sides have reported (R71, R140; log 54). -/
def Engine.formatDone (e : Engine) (c : Side) (o : Order) (pos : Nat) : Engine :=
  let e := e.mark o.slot c pos .done
  if o.mirrored then e else e.countDone o.slot

/-! ### Tests before the first transfer (R127) -/

/-- A MEND's turn has a sector to be written on this side (R76). -/
def Order.mendWrites (o : Order) (c : Side) : Bool :=
  match o.turn with
  | none => false
  | some t => t.set.any fun p => p.2 != c

/-- The side writes: a writing kind, or the written side of a MEND (R105). -/
def Order.writesOn (o : Order) (c : Side) : Bool :=
  o.kind.writes || (o.kind == .mend && o.mendWrites c)

/-- The kinds the volume test applies to (R127). -/
def Kind.testsVolume : Kind → Bool
  | .read => true
  | .write => true
  | .check => true
  | .retire => true
  | .format => false
  | .seek => false
  | .recalibrate => false
  | .mend => false
  | .lock => false
  | .unlock => false
  | .detach => false

/-- The two-sided sense shows a one-sided diskette for work on surface 1 (R127, R147). -/
def Engine.sideAbsent (x : Front) (e : Engine) (d : Drive) (surface : Nat) : Bool :=
  surface == 1 && (x.record d).aux == .twoSidedSense && !(e.drive d).twoSided

/-- The expected volume differs from the first ID's (R127). -/
def Order.volumeDiffers (o : Order) (v : Byte) : Bool :=
  o.kind.testsVolume && o.fields.volume != 0 && o.fields.volume != v

/-- The channel may raise its write gate for an order: it is in a pass, the order's drive is selected, READY
and not write protected, and the order runs and writes on this side (R105, R118). -/
def Engine.mayWrite (e : Engine) (c : Side) (o : Order) : Bool :=
  let d : Drive := ⟨c, o.pair⟩
  ((e.chan c).state == .trackPass || (e.chan c).state == .verifyPass) &&
  (e.chan c).selected == some o.pair && (e.drive d).state == .ready && !(e.drive d).writeProtected &&
  o.state == .running && o.finish.isNone && o.writesOn c

/-! ### Tracks and passes -/

/-- A track is taken in hand, in TRACK_PASS: its items are formed, its searches and fetches begin, or a FORMAT
waits for the index (R128, R130, R135). -/
def Engine.enterTrack (x : Front) (e : Engine) (c : Side) (o : Order) (track : Nat) : Engine :=
  let items := e.itemsOf x o c track
  let e : Engine := e.updChan c fun ch =>
    { ch with
      surfaceOne := trackSurface (o.geometry x) track == 1,
      act := if o.kind = .format then .awaitIndex else .seeking,
      run := { ch.run with track := track, verify := false, items := items, trackTries := 0 } }
  e.fillBuffers x c

/-- The side goes to a track on another cylinder (R107, R128). -/
def Engine.goToTrack (x : Front) (e : Engine) (c : Side) (o : Order) (track : Nat) (why : PosWhy)
    (forced : Bool) : Engine :=
  let r := o.geometry x
  (e.enter x c .positioning).startPositioning x c why (trackCylinder r track) (trackSurface r track) forced

/-- Begin the recovery of the ladder: recalibrate, seek to the track's cylinder, settle and confirm (R139). -/
def Engine.recover (x : Front) (e : Engine) (c : Side) (o : Order) : Engine :=
  e.goToTrack x c o (e.chan c).run.track .recover true

/-- Every sector of a MEND's turn has been read back good (R76, R77). -/
def Engine.turnMended (e : Engine) (o : Order) : Bool :=
  match o.turn with
  | none => false
  | some t => t.set.all fun p =>
      (e.chan p.2.other).run.items.any fun it => it.sector == p.1 && it.write && it.st == .good

/-- A FORMAT has failed for good on this track: what was read back good is done, the rest has failed, and
a ONE FORMAT ends at the lowest failed sector (R71, R140). -/
def Engine.formatFailed (x : Front) (e : Engine) (c : Side) (o : Order) : Engine :=
  let failed := ((e.chan c).run.items.filter fun it => it.st != .good).map Item.pos
  let e := e.setAct c .ending
  let e := failed.foldl (fun e i => e.mark o.slot c i (.failed .verifyFailed)) e
  if o.mirrored then e.resolveAll x o.slot
  else
    match failed with
    | [] => e
    | i :: _ => e.setPending x o.slot .verifyFailed (o.place x i)

/-- The end of a FORMAT's verify pass: the track is done, or is formatted again where the ladder allows
(R137, R139, R140). The answer says whether the side's work on the track is over. -/
def Engine.formatVerified (x : Front) (e : Engine) (c : Side) (o : Order) : Engine × Bool :=
  let run := (e.chan c).run
  if run.items.any fun it => it.st == .failed then
    let tries := run.trackTries + 1
    if tries ≤ x.tables.retry then
      let e : Engine := e.updRun c fun r =>
        { r with
          verify := false, trackTries := tries,
          items := r.items.map fun it => Item.fresh it.pos it.sector true }
      if tries = 2 then (e.recover x c o, false)
      else (((e.countRetry o.slot).enter x c .trackPass).setAct c .awaitIndex, false)
    else (e.formatFailed x c o, true)
  else
    let e := e.setAct c .ending
    (if o.mirrored then e.resolveAll x o.slot else e, true)

/-- After a track, the next one, or the release of the order (R128). For a next track on the same cylinder the
channel is in TRACK_PASS, from its verify pass too, when the move of SSEL to surface 1 makes the test of R147
(R102; log 63). -/
def Engine.leaveTrack (x : Front) (e : Engine) (c : Side) (o : Order) : Engine :=
  let r := o.geometry x
  let here := (e.chan c).run.track
  match e.nextTrack? x o c here with
  | none => e.release x c
  | some t =>
    if trackCylinder r t = trackCylinder r here then
      let e : Engine := (e.enter x c .trackPass).updChan c fun ch =>
        { ch with surfaceOne := trackSurface r t == 1, run := { ch.run with lastId := none } }
      if e.sideAbsent x ⟨c, o.pair⟩ (trackSurface r t) then e.failSide x c .sideAbsent
      else e.enterTrack x c o t
    else e.goToTrack x c o t .next false

/-- The verify pass begins: everything written and not yet read back is sought (R137). -/
def Engine.enterVerify (x : Front) (e : Engine) (c : Side) : Engine :=
  let e := e.enter x c .verifyPass
  (e.updChan c fun ch => { ch with act := .seeking, run := { ch.run with verify := true } }).searchAnew c

/-- The channel ends its verify pass of a MEND: back to the track pass on the same track (R76). -/
def Engine.backToTrack (x : Front) (e : Engine) (c : Side) : Engine :=
  let e := e.enter x c .trackPass
  (e.updChan c fun ch => { ch with act := .seeking, run := { ch.run with verify := false } }).searchAnew c

/-- One step of going on, when the channel waits in a pass that is complete: the verify pass where VERIFY is
set, also when every sector of the pass has failed, the next track, or the release (R76, R102, R128,
R137). -/
def Engine.passEnd (x : Front) (e : Engine) (c : Side) (o : Order) : Engine :=
  let run := (e.chan c).run
  let anyWritten := run.items.any fun it => it.st == .written
  match (e.chan c).state with
  | .trackPass =>
    match o.kind with
    | .mend => if anyWritten then e.enterVerify x c else e
    | .format => e
    | .write => if o.fields.verify then e.enterVerify x c else e.leaveTrack x c o
    | .retire => if o.fields.verify then e.enterVerify x c else e.leaveTrack x c o
    | .read => e.leaveTrack x c o
    | .check => e.leaveTrack x c o
    | .seek => e
    | .recalibrate => e
    | .lock => e
    | .unlock => e
    | .detach => e
  | .verifyPass =>
    match o.kind with
    | .mend => if e.turnMended o then e.stopOrder x o.slot else e.backToTrack x c
    | .format =>
      match e.formatVerified x c o with
      | (e, true) => e.release x c
      | (e, false) => e
    | .write => e.leaveTrack x c o
    | .retire => e.leaveTrack x c o
    | .read => e
    | .check => e
    | .seek => e
    | .recalibrate => e
    | .lock => e
    | .unlock => e
    | .detach => e
  | .idle => e
  | .partnerWait => e
  | .positioning => e
  | .surveyStep => e
  | .stopped => e

/-- Whether the channel waits in a pass with nothing left to serve. -/
def Engine.passComplete (e : Engine) (c : Side) (o : Order) : Bool :=
  let ch := e.chan c
  ch.act == .seeking && (ch.state == .trackPass || ch.state == .verifyPass) &&
  !(ch.run.items.any (Item.open ch.run.verify o.kind))

/-- The channel goes on with its work: a stop asked is met at a clean point, and a complete pass is left.
An order's tracks on one cylinder are at most two, so a few turns suffice. -/
def Engine.goOn (x : Front) : Nat → Engine → Side → Engine
  | 0, e, _ => e
  | n + 1, e, c =>
    match e.orderOf? c with
    | none => e.tryClean x c
    | some o =>
      if (e.chan c).stopping then e.tryClean x c
      else if e.passComplete c o then Engine.goOn x n (e.passEnd x c o) c
      else e

/-- Go on, with turns enough. -/
def Engine.carryOn (x : Front) (e : Engine) (c : Side) : Engine := e.goOn x 8 c

/-- The side's positioning has ended well: the channel enters TRACK_PASS, makes the tests of R127, and takes
its first track in hand (R102, R111, R114, R127, R128). -/
def Engine.startSide (x : Front) (e : Engine) (c : Side) (o : Order) : Engine :=
  let d : Drive := ⟨c, o.pair⟩
  let track := o.firstTrack x
  let e := e.enter x c .trackPass
  if o.writesOn c && (e.drive d).writeProtected then e.failSide x c .writeProtected
  else if e.sideAbsent x d (trackSurface (o.geometry x) track) then e.failSide x c .sideAbsent
  else
    match (e.chan c).run.firstId with
    | some v =>
      if o.volumeDiffers v then e.failSide x c .wrongVolume
      else
        ((e.updRun c fun r => { r with volumeTested := true }).enterTrack x c o track).carryOn x c
    | none =>
      ((e.updRun c fun r => { r with volumeTested := !o.kind.testsVolume }).enterTrack x c o track).carryOn x c

/-- The recovery has ended: the channel returns to the pass it left, and every search begins anew (R139).
The retry is counted as its attempt begins (log 35); a FORMAT is formatted again (log 36). -/
def Engine.resume (x : Front) (e : Engine) (c : Side) (o : Order) : Engine :=
  let e := e.countRetry o.slot
  let e := e.enter x c (if (e.chan c).run.verify then .verifyPass else .trackPass)
  let e := (e.setAct c (if o.kind = .format then .awaitIndex else .seeking)).searchAnew c
  (e.fillBuffers x c).carryOn x c

/-- Positioning has ended with the cylinder confirmed or accepted (R111). The volume test is made at the start
of the side alone, or else at the first ID field of a track pass: the ID of a later track's confirm is not
compared (R127; log 60). -/
def Engine.confirmed (x : Front) (e : Engine) (c : Side) : Engine :=
  match e.orderOf? c with
  | none => e
  | some o =>
    match (e.chan c).positioning.why with
    | .early => e.setAct c .holding
    | .start => e.startSide x c o
    | .next =>
      let p := (e.chan c).positioning
      let e := e.enter x c .trackPass
      if e.sideAbsent x ⟨c, o.pair⟩ p.surface then e.failSide x c .sideAbsent
      else (e.enterTrack x c o (trackOf (o.geometry x) p.target p.surface)).carryOn x c
    | .recover => e.resume x c o

/-! ### Failed attempts (R138 to R140) -/

/-- A sector has failed on this side after the ladder (R140). -/
def Engine.sectorFailed (x : Front) (e : Engine) (c : Side) (o : Order) (it : Item) (code : FinishCode) :
    Engine :=
  let e := e.updItem c it.pos fun it => { it with st := .failed }
  let e : Engine := e.updChan c fun ch => ch.dropData it.pos
  match o.kind with
  | .mend =>
    let r := o.geometry x
    let t := (e.chan c).run.track
    e.setPending x o.slot code
      { cylinder := trackCylinder r t, surface := trackSurface r t, sector := it.sector }
  | _ =>
    let e := e.mark o.slot c it.pos (.failed code)
    if o.mirrored then (e.resolve x o.slot it.pos).fillBuffers x c
    else e.setPending x o.slot code (o.place x it.pos)

/-- The item after a failed attempt that is followed by another (R137, R138): a read-back that failed makes
its sector wanted again. -/
def Item.again (it : Item) : Item :=
  { it with st := .wanted, tries := it.tries + 1, pulses := 0, badId := false }

/-- A failed read-back of a MEND: the sector returns to the read set of the other channel (R137). -/
def Engine.readAgain (e : Engine) (c : Side) (sector : Nat) : Engine :=
  e.updRun c fun r =>
    { r with items := r.items.map fun it =>
        if it.sector = sector ∧ it.write = false then { it with st := .wanted, pulses := 0, badId := false }
        else it }

/-- An attempt on a sector has failed (R138, R139). For a FORMAT the attempt is the whole track: the
read-back of the other sectors goes on (R137; log 39). -/
def Engine.attemptFailed (x : Front) (e : Engine) (c : Side) (o : Order) (it : Item) (code : FinishCode) :
    Engine :=
  let e := e.setAct c .seeking
  let e : Engine :=
    if it.write ∧ code = .verifyFailed ∧ it.st = .written ∧ o.kind ≠ .mend then
      e.mark o.slot c it.pos .notBegun
    else e
  if o.kind = .format then (e.updItem c it.pos fun it => { it with st := .failed }).carryOn x c
  else if it.tries + 1 ≤ x.tables.retry then
    if (e.chan c).stopping then e.tryClean x c
    else
      let e := e.updItem c it.pos Item.again
      let e := if o.kind = .mend ∧ it.st = .written then e.readAgain c.other it.sector else e
      if it.tries + 1 = 2 then e.recover x c o
      else ((e.countRetry o.slot).fillBuffers x c).carryOn x c
  else (e.sectorFailed x c o it code).carryOn x c

end Sys2Proof.Machine
end

