-- ==== Sys2Proof/Machine/Sectors.lean ====
section
/-! DEFINITION. What passes under the head: ID fields, data fields read and written, index pulses, and the
buffers' traffic (R68, R76, R111, R126 to R137, R141). -/

namespace Sys2Proof.Machine

/-! ### ID fields (R126) -/

/-- What a recognised ID field says. -/
structure IdRead where
  volume : Byte
  cylinder : Nat
  surface : Nat
  sector : Nat
  sizeCode : Nat
deriving DecidableEq, Repr

/-- An ID field as read: recognised when its mark and check word are good (R126, 10.10). -/
def idReadOf (bytes : List Byte) : Option IdRead :=
  if idRecognised bytes then
    some { volume := bytes.getD 1 0, cylinder := fieldByte bytes 2, surface := fieldByte bytes 3,
           sector := fieldByte bytes 4, sizeCode := fieldByte bytes 5 }
  else none

/-- A bad ID field is noted by every search in hand (R126, R138). -/
def Engine.noteBadId (e : Engine) (c : Side) (k : Kind) : Engine :=
  e.updRun c fun r =>
    { r with items := r.items.map fun it => if it.sought r.verify k then { it with badId := true } else it }

/-- The channel is in a pass. -/
def Channel.inPass (ch : Channel) : Bool := ch.state == .trackPass || ch.state == .verifyPass

/-- What a recognised ID leaves with the drive line unit and the channel: the last volume, and in a confirm
or a pass the marker of the place on the track (R126, R130, R143). -/
def Engine.keepId (e : Engine) (c : Side) (d : Drive) (id : IdRead) : Engine :=
  let e := e.setDrive d { (e.drive d) with lastVolume := id.volume }
  let ch := e.chan c
  let marks := ch.inPass || (match ch.act with
    | .confirming _ => true
    | _ => false)
  if marks then e.updRun c fun r => { r with lastId := some id.sector } else e

/-- The confirm's ID is kept as the first ID read on the side, but for a recovery's (R111, R127). -/
def Engine.keepFirst (e : Engine) (c : Side) (id : IdRead) : Engine :=
  if (e.chan c).positioning.why = .recover then e
  else e.updRun c fun r => { r with firstId := r.firstId.or (some id.volume) }

/-- A write of the matched sector begins: the write gate rises and the field's bytes go out (R105, R134,
R136). -/
def Engine.beginWrite (x : Front) (e : Engine) (c : Side) (o : Order) (it : Item) (buf : Option Side)
    (mark : Byte) (data : List Byte) : Engine :=
  if e.mayWrite c o then
    let e := e.updItem c it.pos fun it => { it with pulses := 0, badId := false, mark := mark }
    e.updChan c fun ch =>
      { ch with
        act := .writing it.pos buf, writeGate := true,
        writeData := dataFieldStream (o.geometry x).mfm mark data }
  else e

/-- A matched sector is passed over for want of its data or of a free buffer; its search begins anew (R129,
R130, R142; log 41). -/
def Engine.passOver (e : Engine) (c : Side) (o : Order) (it : Item) : Engine :=
  (e.countMissed o.slot).updItem c it.pos Item.searchAnew

/-- A read of the matched sector begins, into a free buffer, or the sector is passed over (R129). -/
def Engine.beginRead (e : Engine) (c : Side) (o : Order) (it : Item) : Engine :=
  match (e.chan c).readBuffer? with
  | none => e.passOver c o it
  | some b =>
    let e := e.updItem c it.pos Item.searchAnew
    e.updChan c fun ch =>
      { ch.setBuffer b { ch.buffers.get b with use := .reading } with
        act := .reading it.pos it.write b 0, lastBuffer := b }

/-- A wanted sector of a write set has arrived (R76, R130, R134, R136). -/
def Engine.arriveWrite (x : Front) (e : Engine) (c : Side) (o : Order) (it : Item) : Engine :=
  if o.kind = .retire then
    e.beginWrite x c o it none retiredMark (List.replicate (o.geometry x).size o.fields.fill)
  else
    match (e.chan c).readyBuffer? it.pos with
    | some (b, m) => e.beginWrite x c o it (some b) m ((e.chan c).buffers.get b).data
    | none => e.passOver c o it

/-- A sought sector has arrived: its ID field has been matched (R66, R76, R128 to R137; log 32). -/
def Engine.arrive (x : Front) (e : Engine) (c : Side) (o : Order) (it : Item) (id : IdRead) : Engine :=
  if it.st = .written then
    if o.kind = .format ∧ id.volume ≠ o.fields.volume then e.attemptFailed x c o it .verifyFailed
    else e.beginRead c o it
  else if it.write then e.arriveWrite x c o it
  else if o.mirrored && o.kind == .read && (o.entry c.other it.pos).reported then
    (e.updItem c it.pos fun it => { it with st := .withdrawn }).carryOn x c
  else if o.kind = .mend ∧ (e.chan c).holds?.isSome then e.passOver c o it
  else e.beginRead c o it

/-- The recognised ID names a place of the track in hand (R126). -/
def IdRead.onTrack (id : IdRead) (r : DriveRecord) (track : Nat) : Bool :=
  id.cylinder == trackCylinder r track && id.surface == trackSurface r track && id.sizeCode == r.sizeCode

/-- A recognised ID field in a pass, the channel waiting for a sector: the volume test where it is still to
be made, the first fetches, and the match (R126, R127, R130). -/
def Engine.idInPass (x : Front) (e : Engine) (c : Side) (o : Order) (id : IdRead) : Engine :=
  let run := (e.chan c).run
  if !run.volumeTested && o.volumeDiffers id.volume then (e.setAct c .ending).failSide x c .wrongVolume
  else
    let e := (e.updRun c fun r => { r with volumeTested := true }).fillBuffers x c
    let run := (e.chan c).run
    if id.onTrack (o.geometry x) run.track then
      match run.items.find? fun it => it.sought run.verify o.kind && it.sector == id.sector with
      | some it => e.arrive x c o it id
      | none => e
    else e

/-- A data field has not been found, or is bad (R131, R137). -/
def Engine.readFailed (x : Front) (e : Engine) (c : Side) (pos : Nat) (buf : Side) : Engine :=
  let e : Engine := e.updChan c fun ch => ch.freeBuffer buf
  match e.orderOf? c, (e.chan c).run.items.find? (fun it => it.pos == pos) with
  | some o, some it =>
    e.attemptFailed x c o it (if it.st = .written then .verifyFailed else .dataCheck)
  | _, _ => (e.setAct c .seeking).tryClean x c

/-- The next ID field's sync run has come while a data mark was awaited (R131). -/
def Engine.noMarkBeforeId (x : Front) (e : Engine) (c : Side) : Engine :=
  match (e.chan c).act with
  | .reading pos _ buf _ => e.readFailed x c pos buf
  | _ => e

/-- An ID field is judged where the channel waits for one: in the confirm, or in a pass (R111, R126). A
channel asked to stop begins nothing for it (R117). -/
def Engine.judgeId (x : Front) (e : Engine) (c : Side) (bytes : List Byte) : Engine :=
  match e.orderOf? c with
  | none => e
  | some o =>
    if (e.chan c).stopping then e
    else
      match idReadOf bytes with
      | none => if (e.chan c).inPass then e.noteBadId c o.kind else e
      | some id =>
        match (e.chan c).act with
        | .confirming _ =>
          if id.cylinder = (e.chan c).positioning.target then (e.keepFirst c id).confirmed x c
          else e.confirmDiffers x c
        | .seeking => if (e.chan c).inPass then e.idInPass x c o id else e
        | _ => e

/-- The channel reads the ID fields that pass: a drive is selected with its head loaded, no survey step is
running, and the write gate is down (R126, R158). -/
def Engine.seesId (e : Engine) (c : Side) : Option Drive :=
  match e.selectedDrive? c with
  | none => none
  | some d =>
    if (e.drive d).loaded ∧ (e.chan c).state ≠ .surveyStep ∧ (e.chan c).writeGate = false then some d
    else none

/-- A recognised ID mark passes under the head, with the field after it (R111, R126). -/
def Engine.idPasses (x : Front) (e : Engine) (c : Side) (bytes : List Byte) : Engine :=
  let e := e.noMarkBeforeId x c
  match e.seesId c with
  | none => e
  | some d =>
    let e := match idReadOf bytes with
      | some id => e.keepId c d id
      | none => e
    e.judgeId x c bytes

/-- Bytes pass under the head that may be an ID field: without a recognised ID mark they are none, and the
separator looks on for the next sync run (R111, R122, R126). -/
def Engine.idField (x : Front) (e : Engine) (c : Side) (f : FieldRead) : Engine :=
  match e.seesId c with
  | none => e
  | some d => if hearsIdMark (x.record d).mfm f then e.idPasses x c f.bytes else e

/-! ### Data fields read (R131 to R133, R137) -/

/-- The sector of a READ is good: its copy to memory begins, or it is discarded where the other side's
report was taken first (R66, R129). The pair manager is asked at this moment whether the sector is stale
(R68; log 53). -/
def Engine.takeRead (x : Front) (e : Engine) (c : Side) (o : Order) (pos : Nat) (buf : Side) : Engine :=
  if o.mirrored && (o.entry c.other pos).reported then
    ((e.mark o.slot c pos .done).updItem c pos fun it => { it with st := .good }).updChan c fun ch =>
      ch.freeBuffer buf
  else
    let other := e.goodSide? o.pair (o.place x pos)
    let stale := !o.fields.pairCopy && other == some c.other && (e.pairs.get o.pair).bound &&
      (e.pairs.get o.pair).mode == .attached
    let e : Engine := e.updOrder o.slot fun o =>
      { o.setEntry c pos .copying with stale := o.stale || stale }
    let e := e.updItem c pos fun it => { it with st := .copying }
    e.updChan c fun ch =>
      { ch.setBuffer buf { ch.buffers.get buf with use := .copying pos } with
        transfers := ch.transfers ++
          [{ buf := buf, toHost := true, pos := pos, addr := o.dataAddress x pos,
             words := (o.geometry x).size / 2, moved := 0 }] }

/-- The sector of a READ under SKIP is done without a copy (R66, R132). Nothing of it is transferred: the pair
manager is not asked whether it is stale (R68; log 53). -/
def Engine.takeSkipped (e : Engine) (c : Side) (o : Order) (pos : Nat) (buf : Side) : Engine :=
  let again := o.mirrored && (o.entry c.other pos).reported
  let e := ((e.mark o.slot c pos .done).updItem c pos fun it => { it with st := .good }).updChan c fun ch =>
    ch.freeBuffer buf
  if again then e else e.countDone o.slot

/-- The sector of a CHECK is good (R72, R133). -/
def Engine.takeChecked (x : Front) (e : Engine) (c : Side) (o : Order) (pos : Nat) (buf : Side) : Engine :=
  let e := (e.updItem c pos fun it => { it with st := .good }).updChan c fun ch => ch.freeBuffer buf
  e.sectorDone x o c pos

/-- A RETIRED mark under the policy STOP: the order ends RETIRED_FOUND at this sector (R67, R72, R132). -/
def Engine.takeRetiredStop (x : Front) (e : Engine) (c : Side) (o : Order) (pos : Nat) (buf : Side) :
    Engine :=
  let e := (e.updItem c pos fun it => { it with st := .failed }).updChan c fun ch => ch.freeBuffer buf
  (e.mark o.slot c pos (.failed .retiredFound)).setPending x o.slot .retiredFound (o.place x pos)

/-- A good data field of a READ or CHECK, by its mark and the retired policy (R131 to R133). -/
def Engine.takeGood (x : Front) (e : Engine) (c : Side) (o : Order) (pos : Nat) (buf : Side)
    (retired : Bool) : Engine :=
  let e := if retired then e.countRetired o.slot else e
  if retired && o.fields.policy == .stop then e.takeRetiredStop x c o pos buf
  else if o.kind = .check then e.takeChecked x c o pos buf
  else if retired && o.fields.policy == .skip then e.takeSkipped c o pos buf
  else e.takeRead x c o pos buf

/-- A MEND's written sector is mended: its entry is removed, and sectors done rises (R76, R77). -/
def Engine.sectorMended (x : Front) (e : Engine) (c : Side) (o : Order) (it : Item) : Engine :=
  let r := o.geometry x
  let t := (e.chan c).run.track
  let place : Place := { cylinder := trackCylinder r t, surface := trackSurface r t, sector := it.sector }
  (e.logRemove x fun l => l.pair == o.pair && l.place == place).countDone o.slot

/-- A sector reads back good (R76, R137). -/
def Engine.readBack (x : Front) (e : Engine) (c : Side) (o : Order) (it : Item) : Engine :=
  let e := e.updItem c it.pos fun it => { it with st := .good }
  match o.kind with
  | .mend => e.sectorMended x c o it
  | .format => e.formatDone c o it.pos
  | _ => e.sectorDone x o c it.pos

/-- A data field of the right length with a mark and a good check word (R122, R131). -/
def dataGood (r : DriveRecord) (bytes : List Byte) : Bool :=
  bytes.length == r.size + 3 &&
  (bytes.head? == some dataMark || bytes.head? == some retiredMark) && fieldGood bytes

/-- The data bytes of a data field (10.10). -/
def dataBytes (r : DriveRecord) (bytes : List Byte) : List Byte := (bytes.drop 1).take r.size

/-- The read is over: the channel waits again, or goes on. -/
def Engine.readOver (x : Front) (e : Engine) (c : Side) : Engine :=
  if (e.chan c).act = .ending then (e.setAct c .seeking).carryOn x c else e

/-- A data field has passed under the head and is judged (R131 to R133, R137). -/
def Engine.judgeData (x : Front) (e : Engine) (c : Side) (o : Order) (it : Item) (buf : Side)
    (bytes : List Byte) : Engine :=
  let r := o.geometry x
  let mark := bytes.getD 0 0
  let e : Engine := e.updChan c fun ch =>
    { ch.setBuffer buf { use := .free, data := dataBytes r bytes } with act := .seeking }
  if !dataGood r bytes then
    e.attemptFailed x c o it (if it.st = .written then .verifyFailed else .dataCheck)
  else if it.st = .written then
    if mark = it.mark then (e.readBack x c o it).carryOn x c
    else e.attemptFailed x c o it .verifyFailed
  else if o.kind = .mend then
    let e := e.updItem c it.pos fun it => { it with st := .holding }
    (e.updChan c fun ch =>
      ch.setBuffer buf { ch.buffers.get buf with use := .holding it.pos mark }).carryOn x c
  else ((e.setAct c .ending).takeGood x c o it.pos buf (mark == retiredMark)).readOver x c

/-- The end of a data field read (R131): without a recognised DATA or RETIRED mark there is no data field,
and the read goes on (R122). -/
def Engine.dataField (x : Front) (e : Engine) (c : Side) (f : FieldRead) : Engine :=
  match (e.chan c).act with
  | .reading pos _ buf _ =>
    match e.orderOf? c, (e.chan c).run.items.find? (fun it => it.pos == pos) with
    | some o, some it =>
      if hearsDataMark (x.record ⟨c, o.pair⟩).mfm f then e.judgeData x c o it buf f.bytes else e
    | _, _ => e
  | _ => e

/-! ### Data fields written (R134, R136) -/

/-- What is written awaits its read-back (R134, R136, R137). -/
def Order.readsBack (o : Order) : Bool := o.fields.verify || o.kind == .mend

/-- The end of a data field write (R78, R134, R136). -/
def Engine.dataWritten (x : Front) (e : Engine) (c : Side) : Engine :=
  match (e.chan c).act with
  | .writing pos buf =>
    let e : Engine := e.updChan c fun ch =>
      let ch := match buf with
        | some b => ch.freeBuffer b
        | none => ch
      { ch with act := .seeking, writeGate := false, writeData := [] }
    match e.orderOf? c with
    | none => e.tryClean x c
    | some o =>
      let e := if o.kind = .mend then e else e.setBack o.pair (e.chan c).run.track
      let e :=
        if o.readsBack then
          let e := e.updItem c pos fun it => { it with st := .written, pulses := 0, badId := false }
          if o.kind = .mend then e else e.mark o.slot c pos .written
        else
          ((e.setAct c .ending).updItem c pos fun it => { it with st := .good }).sectorDone x o c pos
      let e := if (e.chan c).act = .ending then e.setAct c .seeking else e
      (e.fillBuffers x c).carryOn x c
  | _ => e

/-! ### Buffer traffic (R129, R130, R141) -/

/-- The transfer of a channel in a direction that completes next: the one begun first (log 66). -/
def Channel.transferOf? (ch : Channel) (toHost : Bool) : Option Transfer :=
  ch.transfers.find? fun t => t.toHost == toHost

/-- A transfer leaves the channel, and its buffer takes another use. -/
def Channel.endTransfer (ch : Channel) (t : Transfer) (v : SectorBuffer) : Channel :=
  { ch.setBuffer t.buf v with transfers := ch.transfers.erase t }

/-- A READ sector's copy has completed: the sector is done and its buffer free (R66, R129). -/
def Engine.copied (x : Front) (e : Engine) (c : Side) (t : Transfer) : Engine :=
  let e : Engine := e.updChan c fun ch => ch.endTransfer t { ch.buffers.get t.buf with use := .free }
  match e.orderOf? c with
  | none => e.tryClean x c
  | some o =>
    let e := ((e.mark o.slot c t.pos .done).countDone o.slot).updItem c t.pos fun it => { it with st := .good }
    e.carryOn x c

/-- A WRITE sector's data is wholly in its buffer; data no longer wanted frees it (R130). -/
def Engine.fetched (x : Front) (e : Engine) (c : Side) (t : Transfer) (data : List Byte) : Engine :=
  let wanted := (e.chan c).run.items.any fun it => it.pos == t.pos && it.st == .wanted
  let e : Engine := e.updChan c fun ch =>
    ch.endTransfer t { use := if wanted then .ready t.pos dataMark else .free, data := data }
  e.fillBuffers x c

/-- A bus error on a buffer access (R141). -/
def Engine.bufferError (x : Front) (e : Engine) (c : Side) (t : Transfer) : Engine :=
  let e : Engine := e.updChan c fun ch => ch.endTransfer t { ch.buffers.get t.buf with use := .free }
  match e.orderOf? c with
  | none => e.tryClean x c
  | some o =>
    let e :=
      if t.toHost then
        (e.mark o.slot c t.pos .notBegun).updItem c t.pos fun it => { it with st := .withdrawn }
      else e
    e.setPending x o.slot .memoryError Place.origin

/-- A MEND's read data goes across to a free buffer of the other channel (R76). -/
def Engine.passAcross (x : Front) (e : Engine) (c : Side) : Engine :=
  let o := c.other
  match (e.chan c).holds?, (e.chan o).readBuffer? with
  | some b, some b' =>
    match (e.chan c).use b with
    | .holding pos mark =>
      if (e.chan c).order.isSome ∧ (e.chan o).order = (e.chan c).order then
        let data := ((e.chan c).buffers.get b).data
        let e : Engine := e.updChan o fun ch => ch.setBuffer b' { use := .ready pos mark, data := data }
        let e : Engine := e.updChan c fun ch => ch.freeBuffer b
        (e.updItem c pos fun it => { it with st := .passed }).carryOn x c
      else e
    | _ => e
  | _, _ => e

/-! ### Searches and index pulses (R111, R125, R135, R138, R150) -/

/-- The search for a sector has seen two index pulses without a match (R138; log 34). -/
def Engine.searchTimeout (x : Front) (e : Engine) (c : Side) (sector : Nat) : Engine :=
  let ch := e.chan c
  if ch.act = .seeking ∧ ch.inPass = true ∧ ch.stopping = false then
    match e.orderOf? c with
    | none => e
    | some o =>
      match ch.run.items.find? fun it =>
          it.sought ch.run.verify o.kind && it.sector == sector && decide (2 ≤ it.pulses) with
      | none => e
      | some it =>
        e.attemptFailed x c o it
          (if ch.run.verify then .verifyFailed else if it.badId then .idCheck else .sectorNotFound)
  else e

/-- A pulse is counted by every search in hand, but for the sector being read or written (R138). -/
def Engine.pulseSearches (e : Engine) (c : Side) (k : Kind) (busy : Option Nat) : Engine :=
  e.updRun c fun r =>
    { r with items := r.items.map fun it =>
        if it.sought r.verify k && !(busy == some it.pos) then { it with pulses := it.pulses + 1 } else it }

/-- A FORMAT's track is about to be written: what an earlier verify pass had read back good is not done any
more, since the last verify pass alone counts (R140). Of a mirrored order none of it has been counted yet. -/
def Order.reopenFormat (o : Order) (c : Side) : Order :=
  { o with
    progress := o.progress.set c ((o.progress.get c).map fun v => if v = .done then .notBegun else v),
    sectorsDone :=
      if o.mirrored then o.sectorsDone else o.sectorsDone - (o.progress.get c).countP (· == .done) }

/-- FORMAT begins to write its track at the index (R125, R135). -/
def Engine.beginFormat (x : Front) (e : Engine) (c : Side) (o : Order) : Engine :=
  let d : Drive := ⟨c, o.pair⟩
  if e.mayWrite c o then
    (e.updOrder o.slot fun o => o.reopenFormat c).updChan c fun ch =>
      { ch with
        act := .formatting false, writeGate := true,
        writeData := formatTrack (x.record d) o.fields.volume o.fields.fill o.fields.cylinder
          o.fields.surface }
  else e

/-- The end of a FORMAT track: the write gate drops, and the sectors are done or await the verify pass
(R78, R125, R135). -/
def Engine.endFormat (x : Front) (e : Engine) (c : Side) (o : Order) : Engine :=
  let e := e.setBack o.pair (e.chan c).run.track
  let e : Engine := e.updChan c fun ch =>
    { ch with
      act := .ending, writeGate := false, writeData := [],
      run := { ch.run with items := ch.run.items.map fun it =>
        { it with st := if o.fields.verify then .written else .good } } }
  if o.fields.verify then
    let e := (List.range (o.sectorCount x)).foldl (fun e i => e.mark o.slot c i .written) e
    if (e.chan c).stopping then e.release x c else e.enterVerify x c
  else
    let e := (List.range (o.sectorCount x)).foldl (fun e i => e.formatDone c o i) e
    let e := if o.mirrored then e.resolveAll x o.slot else e
    e.release x c

/-- A survey step ends when its waiting is over and three ready samples have been taken (R158). -/
def Engine.trySurveyEnd (x : Front) (e : Engine) (c : Side) : Engine :=
  match (e.chan c).act with
  | .surveying .over n => if 3 ≤ n then e.endSurveyStep x c else e
  | _ => e

/-- A survey step's stage after a counted pulse (R158). -/
def SurveyStage.pulse : SurveyStage → SurveyStage
  | .waitIndex => .waitRevolution
  | .waitRevolution => .over
  | .over => .over

/-- What a counted pulse does at the channel, after the drive line unit has judged it (R111, R125, R131,
R135, R138, R158). -/
def Engine.channelPulse (x : Front) (e : Engine) (c : Side) (elapsed : Nat) : Engine :=
  match (e.chan c).act with
  | .surveying st n => (e.setAct c (.surveying st.pulse n)).trySurveyEnd x c
  | .confirming n => if 2 ≤ n + 1 then e.confirmed x c else e.setAct c (.confirming (n + 1))
  | .awaitIndex =>
    match e.orderOf? c with
    | some o => e.beginFormat x c o
    | none => e
  | .formatting past =>
    match e.orderOf? c with
    | some o =>
      if past then e
      else if elapsed < Config.plannedTrackTime then e.setAct c (.formatting true)
      else e.endFormat x c o
    | none => e
  | .seeking =>
    match e.orderOf? c with
    | some o => if (e.chan c).inPass then e.pulseSearches c o.kind none else e
    | none => e
  | .reading pos w buf n =>
    match e.orderOf? c with
    | some o =>
      let e := e.pulseSearches c o.kind (some pos)
      if 2 ≤ n + 1 then e.readFailed x c pos buf else e.setAct c (.reading pos w buf (n + 1))
    | none => e
  | .writing pos _ =>
    match e.orderOf? c with
    | some o => e.pulseSearches c o.kind (some pos)
    | none => e
  | .none => e
  | .selecting => e
  | .stepping _ => e
  | .settling => e
  | .loading => e
  | .holding => e
  | .ending => e

/-- A counted index pulse of the selected drive (R150). -/
def Engine.indexPulse (x : Front) (e : Engine) (c : Side) (elapsed : Nat) : Engine :=
  match e.selectedDrive? c with
  | none => e
  | some d =>
    let e := e.countPulse x d elapsed
    if (e.chan c).selected = some d.pair then e.channelPulse x c elapsed else e

/-- The end of the nominal final fill of a FORMAT track that the index has already passed (R125). -/
def Engine.finalFillEnd (x : Front) (e : Engine) (c : Side) : Engine :=
  match (e.chan c).act, e.orderOf? c with
  | .formatting true, some o => e.endFormat x c o
  | _, _ => e

end Sys2Proof.Machine
end

