-- ==== Sys2Proof/Machine/Choice.lean ====
section
/-! DEFINITION. The choice unit: run plans, eligibility, the fence, the score, and the winner a channel
claims (R31 to R47, R64, R100). -/

namespace Sys2Proof.Machine

/-! ### Plans and readiness (R34, R35) -/

/-- An order can use a drive (R35). -/
def Engine.ready (e : Engine) (d : Drive) : Bool := (e.drive d).state == .ready

/-- The drive of an order's pair on a side. -/
def Order.driveOn (o : Order) (c : Side) : Drive := ⟨c, o.pair⟩

/-- The order's pair is bound and ATTACHED. -/
def Engine.attached (e : Engine) (o : Order) : Bool :=
  (e.pairs.get o.pair).bound && (e.pairs.get o.pair).mode == .attached

/-- The sides of an order's run plan (R34). -/
def Engine.planOf (e : Engine) (o : Order) : BySide Bool :=
  let a := e.ready (o.driveOn .A)
  let b := e.ready (o.driveOn .B)
  if o.fields.pairCopy then
    if o.kind = .mend then BySide.both (a && b)
    else if e.attached o then ⟨a, b⟩
    else (BySide.both false).set (e.pairs.get o.pair).kept true
  else (BySide.both false).set o.fields.drive.side true

/-- Every drive of the plan is READY (R35). -/
def Engine.planReady (e : Engine) (o : Order) : Bool :=
  (!(e.planOf o).a || e.ready (o.driveOn .A)) && (!(e.planOf o).b || e.ready (o.driveOn .B))

/-! ### The fence (R37 to R39) -/

/-- What counts as writing for the fence (R37). -/
def Order.fenceWrites (o : Order) : Bool :=
  o.kind.writes || o.kind == .mend || (o.kind == .check && o.fields.pairCopy)

/-- Two orders have a drive in common (R38). -/
def Order.shares (a b : Order) : Bool := Drive.all.any fun d => a.covers d && b.covers d

/-- Two orders touch a common sector place: their sectors are runs of positions on drives of one geometry
(R38). SEEK and RECALIBRATE have none. -/
def Order.meets (x : Front) (a b : Order) : Bool :=
  decide (0 < a.sectorCount x) && decide (0 < b.sectorCount x) &&
  decide (a.sectorPos x 0 < b.sectorPos x 0 + b.sectorCount x) &&
  decide (b.sectorPos x 0 < a.sectorPos x 0 + a.sectorCount x)

/-- The sector sets overlap as the fence takes them: a MEND covers every sector, against writing orders
only (R37, R38). -/
def Order.overlaps (x : Front) (a b : Order) : Bool :=
  if a.kind = .mend ∨ b.kind = .mend then a.fenceWrites && b.fenceWrites
  else (a.fenceWrites || b.fenceWrites) && a.meets x b

/-- The roster states in which an order fences later ones (R39). -/
def RosterState.fences : RosterState → Bool
  | .queued => true
  | .boundWait => true
  | .running => true
  | .waitingRound => false

/-- An earlier order fences a later one (R37 to R39). -/
def Order.fences (x : Front) (a b : Order) : Bool :=
  a.finish.isNone && a.state.fences && a.shares b && a.overlaps x b

/-- The orders before a slot's in post order. -/
def Engine.earlier (e : Engine) (slot : Nat) : List Order := e.held.takeWhile fun o => !(o.slot == slot)

/-- No earlier order fences this one (R37). -/
def Engine.unfenced (x : Front) (e : Engine) (o : Order) : Bool :=
  !((e.earlier o.slot).any fun a => a.fences x o)

/-! ### Eligibility (R33, R36) -/

/-- The tests of state, channel, drive and fence (R33). -/
def Engine.passesButRoom (x : Front) (e : Engine) (o : Order) (c : Side) : Bool :=
  o.state == .queued && o.finish.isNone && (e.planOf o).get c && e.planReady o && e.unfenced x o

/-- The room an order needs (R36). -/
def Engine.roomNeed (x : Front) (e : Engine) (o : Order) : Nat :=
  if o.needsRoom e then o.sectorCount x else 0

/-- The room test (R36). -/
def Engine.hasRoom (x : Front) (e : Engine) (o : Order) : Bool :=
  decide (e.roomNeed x o ≤ e.freeEntries)

/-- An order is eligible for a channel (R33). -/
def Engine.eligible (x : Front) (e : Engine) (o : Order) (c : Side) : Bool :=
  e.passesButRoom x o c && e.hasRoom x o

/-- An order is held back for room alone: its room note is set, and SPLIT_ROOM with it (R64). -/
def Engine.noteRoom (x : Front) (e : Engine) (c : Side) (slot : Nat) : Engine :=
  match e.order? slot with
  | none => e
  | some o =>
    if e.passesButRoom x o c && !e.hasRoom x o && !o.roomNote then
      (e.updOrder slot fun o => { o with roomNote := true }).setAttention attnSplitRoom
    else e

/-- The room notes of a choice (R64). -/
def Engine.noteRooms (x : Front) (e : Engine) (c : Side) : Engine :=
  (e.held.map Order.slot).foldl (fun e slot => e.noteRoom x c slot) e

/-! ### The score (R42 to R45) -/

/-- The track a MEND's next turn would take (R44, R75); without entries the spec names none, and it is a
free value (log 12). -/
def Engine.mendTrack (x : Front) (e : Engine) (o : Order) : Nat :=
  let r := o.geometry x
  if e.attached o then
    match e.log.find? (LogEntry.ofPair o.pair) with
    | some l => trackOf r l.place.cylinder l.place.surface
    | none => Config.mendTarget e.freeIndex % (r.cylinders * r.surfaces)
  else o.cursor.getD 0

/-- The track an order's run would begin on. -/
def Engine.beginTrack (x : Front) (e : Engine) (o : Order) : Nat :=
  if o.kind = .mend then e.mendTrack x o else o.firstTrack x

/-- The target cylinder of an order (R44). -/
def Engine.target (x : Front) (e : Engine) (o : Order) : Nat :=
  trackCylinder (o.geometry x) (e.beginTrack x o)

/-- The rush term (R42, R100). -/
def rushTerm (rush : Bool) (p : Phase) : Nat :=
  match rush, p with
  | true, .near => 128
  | true, .closed => 128
  | true, .idle => 0
  | true, .far => 0
  | false, _ => 0

/-- The urgency of an order (R42). -/
def Order.urgency (x : Front) (o : Order) : Nat :=
  64 * ((x.tables.desks[o.fields.desk]?.map Desk.cls).getD 0) + min o.age 127 +
    rushTerm o.fields.rush x.clock.phase

/-- The distance D for one side (R43). -/
def Engine.distance (e : Engine) (d : Drive) (target : Nat) : Nat :=
  match (e.drive d).cylinder with
  | none => 80
  | some v => if v ≤ target then target - v else v - target

/-- The head term H and the drive term W for one side (R43). -/
def Engine.headTerm (e : Engine) (d : Drive) : Nat := if (e.drive d).loaded then 0 else 16
def Engine.driveTerm (e : Engine) (d : Drive) : Nat :=
  if (e.chan d.side).lastSelected = some d.pair then 0 else 8

/-- The greatest of a term over the sides of a plan (R44). -/
def planMax (plan : BySide Bool) (f : Side → Nat) : Nat :=
  max (if plan.a then f .A else 0) (if plan.b then f .B else 0)

/-- The cost of an order under its plan (R43, R44). -/
def Engine.cost (x : Front) (e : Engine) (o : Order) : Nat :=
  let plan := e.planOf o
  planMax plan (fun c => e.distance (o.driveOn c) (e.target x o)) +
  planMax plan (fun c => e.headTerm (o.driveOn c)) +
  planMax plan (fun c => e.driveTerm (o.driveOn c))

/-- The score of an order (R45). -/
def Engine.score (x : Front) (e : Engine) (o : Order) : Int :=
  2 * (o.urgency x : Int) - (e.cost x o : Int)

/-! ### The winner (R46, R47) -/

/-- The first of the greatest by a measure, in list order. -/
def firstGreatest (f : Order → Int) (os : List Order) : Option Order :=
  os.foldl (fun best o =>
    match best with
    | none => some o
    | some b => if f b < f o then some o else some b) none

/-- The order a channel chooses (R46, R47). -/
def Engine.winner? (x : Front) (e : Engine) (c : Side) : Option Order :=
  let els := e.held.filter fun o => e.eligible x o c
  let overdue := els.filter fun o => decide (x.tables.overdue ≤ o.age)
  if overdue.isEmpty then firstGreatest (e.score x) els
  else firstGreatest (fun o => (o.age : Int)) overdue

/-- A choice: the room notes, and the claim for the winner (R32, R64). -/
def Engine.choose (x : Front) (e : Engine) (c : Side) : Engine :=
  let w := e.winner? x c
  let e := e.noteRooms x c
  match w with
  | none => e
  | some o =>
    { e.updChan c (fun ch => { ch with claim := some { slot := o.slot, held := true } }) with
      freeIndex := e.freeIndex + 1 }

end Sys2Proof.Machine
end

