-- ==== Sys2Proof/Machine/Begin.lean ====
section
/-! DEFINITION. How a channel begins: selection for an order, for early positioning or for a survey step;
the grant of a claim; the takeover of a bound order; and the turn of a MEND (R48 to R54, R65, R75, R104,
R113 to R115, R158). -/

namespace Sys2Proof.Machine

/-! ### Beginning (R104, R113, R158) -/

/-- A channel is bound to an order and is about to select its drive; a claim it had in flight is dropped
(R50, R54). -/
def Engine.bind (e : Engine) (c : Side) (slot : Nat) : Engine :=
  e.updChan c fun ch =>
    { ch with order := some slot, claim := none, act := .selecting, stopping := false,
              selectedWell := false, heldFailure := none, run := Run.none }

/-- The binding is undone: nothing was begun. -/
def Engine.unbind (e : Engine) (c : Side) : Engine :=
  e.updChan c fun ch => { ch with order := none, act := .none, stopping := false }

/-- A side counts as served (R104). -/
def Engine.markServed (e : Engine) (slot : Nat) (c : Side) : Engine :=
  e.updOrder slot fun o => { o with served := o.served.set c true }

/-- The start of a side's run: selection, then positioning (R49, R104, R107; log 42). A side whose own
selection records no medium change and finds the drive READY is served, also where the other side's has
stopped the order. An order stopped at its own selection finishes with this release, after the waiting
orders that the same change finishes (R24, R27; log 52). -/
def Engine.beginPositioning (x : Front) (e : Engine) (c : Side) : Engine :=
  match e.orderOf? c with
  | none => e
  | some o =>
    let before := (e.drive (o.driveOn c)).generation
    let e := (e.enter x c .positioning).select x c o.pair false
    match e.orderOf? c with
    | none => e
    | some o =>
      let st := (e.drive (o.driveOn c)).state
      if (e.drive (o.driveOn c)).generation ≠ before then (e.setAct c .none).release x c
      else if st ≠ .ready then e.failSide x c st.faultCode
      else
        let e := e.markServed o.slot c
        let e : Engine := e.updChan c fun ch => { ch with selectedWell := true }
        if (e.chan c).stopping then (e.setAct c .none).release x c
        else
          let t := o.firstTrack x
          e.startPositioning x c .start (trackCylinder (o.geometry x) t) (trackSurface (o.geometry x) t) false

/-- The start of a partner wait: selection, then early positioning (R50, R113). -/
def Engine.beginPartnerWait (x : Front) (e : Engine) (c : Side) : Engine :=
  match e.orderOf? c with
  | none => e
  | some o =>
    let e := (e.enter x c .partnerWait).select x c o.pair false
    if (e.chan c).stopping then (e.setAct c .none).tryClean x c
    else
      let st := (e.drive (o.driveOn c)).state
      let e : Engine := e.updChan c fun ch => { ch with selectedWell := true }
      if st ≠ .ready then e.holdFailure x c st.faultCode
      else
        let t := e.beginTrack x o
        e.startPositioning x c .early (trackCylinder (o.geometry x) t) (trackSurface (o.geometry x) t) false

/-- The start of a survey step (R158). A step whose drive leaves READY at the selection sample ends there. -/
def Engine.beginStep (x : Front) (e : Engine) (c : Side) : Engine :=
  match e.survey.stepOn c with
  | none => e
  | some d =>
    let was := (e.drive d).state
    let e := (e.enter x c .surveyStep).select x c d.pair true
    let e := e.setAct c (.surveying .waitIndex 1)
    if was = .ready ∧ (e.drive d).state ≠ .ready then e.endSurveyStep x c else e

/-- What has been given to a channel begins (R115). -/
def Engine.start (x : Front) (e : Engine) (c : Side) (b : Begin) : Engine :=
  match b with
  | .positioning => e.beginPositioning x c
  | .partnerWait => e.beginPartnerWait x c
  | .surveyStep => e.beginStep x c

/-- It begins now, or when the unload touch in progress ends (R115). -/
def Engine.startOrDefer (x : Front) (e : Engine) (c : Side) (b : Begin) : Engine :=
  if (e.chan c).touch.isSome then e.updChan c fun ch => { ch with deferred := some b }
  else e.start x c b

/-! ### The turn of a MEND (R75) -/

/-- The work of a MEND's turn, or none when the pair has no entries. -/
def Engine.fixTurn (x : Front) (e : Engine) (o : Order) : Option Turn :=
  let r := o.geometry x
  if e.attached o then
    let entries := e.log.filter (LogEntry.ofPair o.pair)
    match entries with
    | [] => none
    | l :: _ =>
      let t := trackOf r l.place.cylinder l.place.surface
      some { track := t,
             set := (entries.filter fun m => trackOf r m.place.cylinder m.place.surface == t).map fun m =>
               (m.place.sector, m.good) }
  else
    some { track := o.cursor.getD 0,
           set := (List.range r.sectors).map fun k => (r.firstSector + k, (e.pairs.get o.pair).kept) }

/-- The turn is recorded, a DETACHED pair's with the cursor it is given (R75, R78). -/
def Engine.setTurn (e : Engine) (o : Order) (t : Turn) : Engine :=
  let detached := !e.attached o
  e.updOrder o.slot fun o =>
    { o with turn := some t, cursor := if detached then some (o.cursor.getD 0) else o.cursor }

/-! ### Grants (R48 to R50) -/

/-- What a grant fixes for the run: whether it is a mirrored one, and that no sector of it has been resolved
yet (R34, R58, R63), with the change of state given. -/
def Engine.planRun (x : Front) (e : Engine) (o : Order) (f : Order → Order) : Engine :=
  let mirrored := o.fields.pairCopy && o.kind != .mend && e.attached o
  let resolved := List.replicate (o.sectorCount x) false
  e.updOrder o.slot fun o => { f o with mirrored := mirrored, resolved := resolved }

/-- The order becomes RUNNING under its plan: the reservation is taken and the phase written (R49, R50,
R63). The room note clears at the grant (R64). -/
def Engine.run (x : Front) (e : Engine) (o : Order) (plan : BySide Bool) : Engine :=
  let need := e.roomNeed x o
  let e : Engine := e.planRun x o fun o =>
    { o with state := .running, waiter := none, plan := plan, roomNote := false }
  (e.reserve x o.slot need).writePhase x o.slot phaseRunning none

/-- The side left out of a one-side plan on an ATTACHED pair has failed every sector (R34, R65). It is not
counted against a SEEK or RECALIBRATE (R112). -/
def Engine.leaveOut (x : Front) (e : Engine) (slot : Nat) (c : Side) : Engine :=
  match e.order? slot with
  | none => e
  | some o =>
    if o.mirrored && !(o.kind == .seek || o.kind == .recalibrate) then
      let code := (e.drive (o.driveOn c)).state.faultCode
      let e : Engine := e.updOrder slot fun o =>
        { o.failEntries c code with sideFailure := o.sideFailure.set c (some code) }
      e.resolveAll x slot
    else e

/-- The grant of a plan that uses one side (R49). -/
def Engine.grantOne (x : Front) (e : Engine) (c : Side) (o : Order) : Engine :=
  let e := (e.run x o ((BySide.both false).set c true)).bind c o.slot
  (e.leaveOut x o.slot c.other).startOrDefer x c .positioning

/-- A channel can be bound at once: it is IDLE and not bound (R50). -/
def Channel.free (ch : Channel) : Bool := ch.state == .idle && ch.order.isNone && ch.deferred.isNone

/-- A channel begins its side, if it still holds the order. -/
def Engine.startIfHeld (x : Front) (e : Engine) (c : Side) (slot : Nat) : Engine :=
  if (e.chan c).order = some slot then e.startOrDefer x c .positioning else e

/-- The grant of a plan that uses both sides (R50). A MEND that finds no entries has no turn, and finishes
(R75). -/
def Engine.grantTwo (x : Front) (e : Engine) (c : Side) (o : Order) : Engine :=
  if (e.chan c.other).free then
    let e := ((e.run x o (BySide.both true)).bind c o.slot).bind c.other o.slot
    if o.kind = .mend then
      match e.fixTurn x o with
      | none => ((e.unbind c).unbind c.other).decideFinish x o.slot .ok false
      | some t => ((e.setTurn o t).startIfHeld x c o.slot).startIfHeld x c.other o.slot
    else (e.startIfHeld x c o.slot).startIfHeld x c.other o.slot
  else
    let need := e.roomNeed x o
    let e : Engine := e.planRun x o fun o =>
      { o with state := .boundWait, waiter := some c, plan := BySide.both true, roomNote := false }
    ((e.reserve x o.slot need).bind c o.slot).startOrDefer x c .partnerWait

/-- The roster takes a claim (R48). A claim answered taken leaves the order as it was; the claimer chooses
again. A claim whose order has left the list is answered taken, also where its slot holds another order by
then. -/
def Engine.takeClaim (x : Front) (e : Engine) (c : Side) : Engine :=
  match (e.chan c).claim with
  | none => e
  | some cl =>
    let e : Engine := e.updChan c fun ch => { ch with claim := none }
    if x.ctl = .run ∧ (e.chan c).free = true ∧ cl.held = true then
      match e.order? cl.slot with
      | none => e
      | some o =>
        let ok := e.eligible x o c
        let e := e.noteRoom x c cl.slot
        if ok then
          let plan := e.planOf o
          if plan.a && plan.b then e.grantTwo x c o else e.grantOne x c o
        else e
    else e

/-! ### The takeover (R52, R114) -/

/-- The waiting channel leaves PARTNER_WAIT at the join (R114). Where a MEND's turn begins on another track than
the one positioned for while early positioning is still in progress, a step in hand runs to its end and the
positioning goes on to the new target; a wait in hand is given up and the positioning begins anew from where the
head stands (log 64). -/
def Engine.joinWaiter (x : Front) (e : Engine) (w : Side) (slot : Nat) : Engine :=
  let ch := e.chan w
  match e.orderOf? w with
  | none => e
  | some o =>
    if ch.order ≠ some slot then e
    else if ch.deferred.isSome then e.updChan w fun ch => { ch with deferred := some .positioning }
    else
      let r := o.geometry x
      let t := o.firstTrack x
      let cyl := trackCylinder r t
      let surf := trackSurface r t
      let same := ch.positioning.target == cyl && ch.positioning.surface == surf
      match ch.heldFailure with
      | some code => e.failSide x w code
      | none =>
        match ch.act with
        | .holding =>
          if ch.stopping then e.tryClean x w
          else if same then (if o.kind.loadsHead then e.startSide x w o else e.release x w)
          else e.goToTrack x w o t .start false
        | .stepping _ =>
          (e.enter x w .positioning).updPositioning w fun p =>
            { p with why := .start, target := cyl, surface := surf }
        | _ =>
          let e := e.enter x w .positioning
          if same || ch.stopping then e.updPositioning w fun p => { p with why := .start }
          else e.startPositioning x w .start cyl surf false

/-- The waiting side counts as served from the takeover, if it was selected without a medium change, a held
failure included (R104, R114). -/
def Engine.serveWaiter (e : Engine) (w : Side) (slot : Nat) : Engine :=
  if (e.chan w).selectedWell then e.markServed slot w else e

/-- The channel named to join takes the bound order over (R52). -/
def Engine.takeover (x : Front) (e : Engine) (j : Side) (o : Order) : Engine :=
  let w := j.other
  let e : Engine := e.updOrder o.slot fun o => { o with state := .running, waiter := none }
  let e := (e.writePhase x o.slot phaseRunning none).bind j o.slot
  let go (e : Engine) : Engine :=
    ((e.serveWaiter w o.slot).startOrDefer x j .positioning).joinWaiter x w o.slot
  if o.kind = .mend then
    match e.fixTurn x o with
    | none => ((e.unbind j).decideFinish x o.slot .ok false).freeWaiter x w o.slot
    | some t => go (e.setTurn o t)
  else go e

end Sys2Proof.Machine
end

