-- ==== Sys2Proof/Machine/Settle.lean ====
section
/-! DEFINITION. What follows every event: an IDLE channel makes its pending unloads, takes a bound order
over, takes a survey step that has waited its time, chooses, or takes the step offered (R31, R52, R115,
R157); and a controller that has drained enters CONFIG (R119, R160, R161). -/

namespace Sys2Proof.Machine

/-! ### Unload touches (R115) -/

/-- The bound order a channel is to take over. -/
def Engine.boundFor? (e : Engine) (c : Side) : Option Order :=
  e.held.find? fun o => o.state == .boundWait && o.waiter == some c.other && o.finish.isNone

/-- The drive whose pending unload is made next: the lower drive first, but not one that a takeover of the
same drive cancels (R115). -/
def Engine.pendingUnload? (e : Engine) (c : Side) : Option PairId :=
  [PairId.p0, PairId.p1].find? fun p =>
    e.timers.drive ⟨c, p⟩ == .pending && !((e.boundFor? c).map Order.pair == some p)

/-- An unload touch begins: the select line is driven with HLD inactive (R115). -/
def Engine.startTouch (e : Engine) (c : Side) (p : PairId) (first : Bool) : Engine :=
  (e.updChan c fun ch => { ch with touch := some { pair := p, first := first }, headLoad := false }).setTimer
    ⟨c, p⟩ .stopped

/-! ### A free channel (R31, R157) -/

/-- The survey step offered to a channel, while no other step of the survey is in hand (R157, R159). -/
def Engine.offered? (e : Engine) (c : Side) : Option Drive :=
  if e.survey.step.isNone then e.survey.next.filter fun d => d.side == c else none

/-- The channel takes the step offered: it is the step in hand (R155, R157). One that a channel takes during an
unload touch begins when the touch ends (R115), and counts as in hand, not as waiting, from its taking (log
57). -/
def Engine.takeStep (x : Front) (e : Engine) (c : Side) (d : Drive) : Engine :=
  let e := { e with survey := { e.survey with step := some d } }
  if (e.chan c).touch.isSome then e.updChan c fun ch => { ch with deferred := some .surveyStep }
  else e.beginStep x c

/-- A channel that is free and makes no unload first: takeover, step, choice, step (R31, R52, R157). A step
that has waited its time goes before a choice, one that a claim answered taken asks for again included (R48;
log 50). The answer says whether something was begun. -/
def Engine.takeNext (x : Front) (e : Engine) (c : Side) : Engine × Bool :=
  match e.boundFor? c with
  | some o => (e.takeover x c o, true)
  | none =>
    if x.ctl ≠ .run ∨ (e.chan c).claim.isSome then (e, false)
    else
      match e.offered? c with
      | none => (e.choose x c, false)
      | some d =>
        if Config.surveyPatience ≤ e.survey.waiting then (e.takeStep x c d, true)
        else
          let e' := e.choose x c
          if (e'.chan c).claim.isSome then (e', false) else (e'.takeStep x c d, true)

/-- One channel settles. During a touch that it made before choosing it waits for the touch's end (log 23). -/
def Engine.settleChannel (x : Front) (e : Engine) (c : Side) : Engine × Bool :=
  let ch := e.chan c
  if !ch.free then (e, false)
  else
    match ch.touch with
    | some t => if t.first then (e, false) else e.takeNext x c
    | none =>
      match e.pendingUnload? c with
      | some p => (e.startTouch c p true, true)
      | none => e.takeNext x c

/-- Both channels settle, A before B (log 8), again while something was begun that may free the other. -/
def Engine.settleLoop (x : Front) : Nat → Engine → Engine
  | 0, e => e
  | n + 1, e =>
    let a := e.settleChannel x .A
    let b := a.1.settleChannel x .B
    if a.2 || b.2 then Engine.settleLoop x n b.1 else b.1

/-- The channels settle in RUN and DRAINING; nothing is left to them in the other states. -/
def Engine.settle (x : Front) (e : Engine) : Engine :=
  if x.active then Engine.settleLoop x 12 e else e

/-! ### Entering CONFIG (R119, R148, R153, R160, R161) -/

/-- The drives of a channel whose heads are loaded, lower number first. -/
def Engine.loadedDrive? (e : Engine) (c : Side) : Option PairId :=
  [PairId.p0, PairId.p1].find? fun p => (e.drive ⟨c, p⟩).loaded

/-- A channel on its way to STOPPED: the next unload touch, or STOPPED with its lines inactive (R119). -/
def Engine.configChannel (x : Front) (e : Engine) (c : Side) : Engine :=
  let ch := e.chan c
  if ch.state = .stopped ∨ ch.touch.isSome then e
  else
    match e.loadedDrive? c with
    | some p => e.startTouch c p false
    | none =>
      (e.updChan c fun ch => { ch with headLoad := false, writeGate := false, act := .none }).enter x c .stopped

/-- Both channels are STOPPED. -/
def Engine.bothStopped (e : Engine) : Bool :=
  (e.chan .A).state == .stopped && (e.chan .B).state == .stopped

/-- One drive's lock, hold and lamp are released, and its status record is written if it has changed
(R148, R149, R153). -/
def Engine.releaseOutputs (x : Front) (e : Engine) (d : Drive) : Engine :=
  let k := e.drive d
  let k' := { k with
    mountHold := false, latch := false,
    aux := if (x.record d).aux.output then false else k.aux }
  let changed := e.report.drive d || k' != k
  let e := { e.setDrive d k' with report := e.report.setDrive d false }
  if changed then e.writeStatus x d none else e

/-- The drive line unit's part, after the touches (R160). -/
def Engine.releaseAll (x : Front) (e : Engine) : Engine :=
  Drive.all.foldl (fun e d => e.releaseOutputs x d) e

/-- The channels' part of entering CONFIG, as far as no touch is in the way (R119). -/
def Engine.configChannels (x : Front) (e : Engine) : Engine :=
  let e := (e.configChannel x .A).configChannel x .B
  if e.bothStopped then e.releaseAll x else e

/-- The front on entering CONFIG (R161, R168, R170). -/
def Front.enterConfig (x : Front) : Front := { x with ctl := .config, actionQ := [], enable := 0 }

/-- DRAINING has nothing left to wait for (R161). -/
def Engine.drained (e : Engine) : Bool :=
  (e.chan .A).free && (e.chan .B).free && (e.chan .A).touch.isNone && (e.chan .B).touch.isNone &&
  e.held.isEmpty && !e.finishOutstanding

/-- The engine on entering CONFIG (R115, R119, R161). -/
def Engine.enterConfig (x : Front) (e : Engine) : Engine :=
  let e := e.writeCtl x .config
  let e := { e with timers := BySide.allDrives .stopped }
  let drop (e : Engine) (c : Side) : Engine := e.updChan c fun ch => { ch with claim := none }
  (drop (drop e .A) .B).configChannels x

/-- An event has been taken: the channels settle, and a drained controller enters CONFIG. -/
def State.settle (s : State) : State :=
  let e := s.engine.settle s.front
  if s.front.ctl = .draining ∧ e.drained = true then
    let x := s.front.enterConfig
    { s with front := x, engine := e.enterConfig x }
  else { s with engine := e }

/-- An event at the engine while the controller is in RUN or DRAINING, and what follows it. In the other
states the part takes no such event. See log 2. -/
def State.engineEvent (s : State) (f : Front → Engine → Engine) : State :=
  if s.front.active then { s with engine := f s.front s.engine }.settle else s

end Sys2Proof.Machine
end

