-- ==== Sys2Proof/Machine/Clock.lean ====
section
/-! DEFINITION. The edition clock (R92 to R98): its phases, its commands, its count and its close. -/

namespace Sys2Proof.Machine

/-- The outcome of every meaning of this part. -/
abbrev Result := Host.Outcome State Fault Refusal

/-- The phase that follows from the remaining time, once a value has been loaded (R94). -/
def phaseAt (remaining window : Nat) : Phase :=
  if window < remaining then .far else if 1 ≤ remaining then .near else .closed

/-- The phase on entering RUN (R93). -/
def Clock.phaseOnStart (k : Clock) (window : Nat) : Phase :=
  match k.phase with
  | .far => phaseAt k.remaining window
  | .near => phaseAt k.remaining window
  | .idle => .idle
  | .closed => .closed

/-- A preset is applied (R95). -/
def Clock.load (k : Clock) (preset : Nat) : Clock :=
  let r := min Config.maxRemaining preset
  { k with remaining := r, phase := phaseAt r k.window }

/-- One count (R97); the count from 1 to 0 clears the running flag (R98). -/
def Clock.count (k : Clock) : Clock :=
  let r := k.remaining - 1
  { k with remaining := r, phase := phaseAt r k.window, running := k.running && decide (0 < r) }

/-- The front with another clock. -/
def Front.withClock (x : Front) (k : Clock) : Front := { x with clock := k }

/-- The clock changes, and its fields are written (R92). -/
def State.setClock (s : State) (k : Clock) : State :=
  let x := s.front.withClock k
  { s with front := x, engine := s.engine.writeClock x }

/-- Header offset of the edition preset (10.2). -/
def presetOffset : Nat := 0x16

/-- A command or register write arrives: the reset line is not active (R173). -/
def Front.hears (x : Front) : Bool := !x.resetLine

/-- CLOCK_LOAD (R95, R162). -/
def execClockLoad (s : State) : Result :=
  .next <|
    if s.front.hears ∧ s.front.active then
      { s with engine := s.engine.issue .presetRead (areaReads s.front presetOffset 1) (some .presetRead) }
    else s

/-- PRESET_READ_COMPLETE (R95): the load is applied whatever the state has become, FAULT and reset apart,
which leave no read in flight. -/
def execPresetReadComplete (preset : Word) (s : State) : Result :=
  .next <|
    match s.await (fun n => n == .presetRead) with
    | none => s
    | some (_, s) => s.setClock (s.front.clock.load preset.toNat)

/-- CLOCK_RUN (R96, R162). -/
def execClockRun (s : State) : Result :=
  .next <| if s.front.hears ∧ s.front.active then s.setClock { s.front.clock with running := true } else s

/-- CLOCK_HALT (R96, R162). -/
def execClockHalt (s : State) : Result :=
  .next <| if s.front.hears ∧ s.front.active then s.setClock { s.front.clock with running := false } else s

/-- A waiting order that the close gives up (R98). -/
def Order.lateAtClose (o : Order) : Bool :=
  o.fields.drop && o.finish.isNone && !(o.state == .running)

/-- The close reaches the roster (R98): the waiting DROP orders finish LATE, in post order; when there are
none, CLOSE is set at once. -/
def Engine.close (x : Front) (e : Engine) : Engine :=
  let late := (e.held.filter Order.lateAtClose).map Order.slot
  match late with
  | [] => e.setAttention attnClose
  | _ :: _ =>
    let e := { e with closes := e.closes ++ [late.length] }
    late.foldl (fun e slot => e.finishWaiting x slot .late true) e

/-- A count is taken: the clock runs, with time left, in RUN or DRAINING (R97). -/
def Front.counts (x : Front) : Bool := x.active && x.clock.running && decide (0 < x.clock.remaining)

/-- The close falls together with the entry to FAULT: the fault record has not been written yet, and the
clock counted up to that entry, from RUN or DRAINING (R97, R99, R172; log 43). -/
def State.closesGoingToFault (s : State) : Bool :=
  s.front.ctl == .fault && s.front.faultActive && !s.engine.port.queue.isEmpty && s.front.clock.running &&
    decide (s.front.clock.remaining = 1)

/-- EDITION_COUNT (R97, R98). While the controller is going to FAULT the close finds the roster stopped:
CLOSE is set, and nothing is written (R99). -/
def execEditionCount (s : State) : Result :=
  .next <|
    if s.front.counts then
      let s := s.setClock s.front.clock.count
      (if s.front.clock.remaining = 0 then { s with engine := s.engine.close s.front } else s).settle
    else if s.closesGoingToFault then
      { s with
        front := s.front.withClock s.front.clock.count, engine := s.engine.setAttention attnClose }
    else s

end Sys2Proof.Machine
end

