-- ==== Sys2Proof/Machine/HostCommands.lean ====
section
/-! DEFINITION. The host's writes to the registers, START's completion, and the resets (R28, R29, R161 to
R169, R173, R176). -/

namespace Sys2Proof.Machine

/-! ### START (R163 to R165) -/

/-- A failed START: CONFIG, and one header write with the error, after which CONFIG_ERROR is set (R165). -/
def State.failStart (s : State) (code : ConfigErrorCode) (item : Nat) : State :=
  let x : Front := { s.front with ctl := .config, starting := .off }
  { s with
    front := x,
    engine := s.engine.headerWrite x
      [(0x00, BitVec.ofNat 16 Ctl.config.code), (0x08, BitVec.ofNat 16 code.code),
        (0x0A, BitVec.ofNat 16 item)] (some .configError) }

/-- START's reads of stage 2 in their order (R163): configuration block, desk records, drive records
(log 22). -/
def Engine.startReads (x : Front) (e : Engine) : Engine :=
  ((e.issue .areaRead (areaReads x configOffset 32) none).issue .areaRead
    (areaReads x (deskOffset 0) 32) none).issue .areaRead (areaReads x (driveOffset ⟨.A, .p0⟩) 32)
    (some .startRead)

/-- START's read of stage 5: as many image entries as the length says, from position 0 (R62, R163). -/
def Engine.imageRead (x : Front) (e : Engine) (length : Nat) : Engine :=
  e.issue .areaRead (areaReads x (imageOffset 0) (4 * length)) (some .startRead)

/-- The first stages of START, once both channels are STOPPED (R119, R163). -/
def State.beginStart (s : State) : State :=
  if Config.maxAreaBase < s.front.areaBase.toNat then s.failStart .badBase s.front.areaBase.toNat
  else
    let x : Front := { s.front with starting := .reading }
    { s with front := x, engine := s.engine.startReads x }

/-- START waits until both channels are STOPPED (R119). -/
def State.tryStart (s : State) : State :=
  if s.front.ctl = .starting ∧ s.front.starting = .waiting ∧ s.engine.bothStopped = true then s.beginStart
  else s

/-- START (R162, R163). -/
def execStart (s : State) : Result :=
  .next <|
    if s.front.hears ∧ s.front.ctl = .config then
      { s with front := { s.front with ctl := .starting, starting := .waiting } }.tryStart
    else s

/-- The front that enters RUN (R80, R93, R165). -/
def Front.enterRun (x : Front) (k : Commit) : Front :=
  { x with
    ctl := .run, starting := .off, tables := k.tables, enable := k.enable, round := 0,
    clock := { x.clock with window := k.window, phase := x.clock.phaseOnStart k.window } }

/-- The header words written on entering RUN (R165, R174). -/
def Engine.runHeader (x : Front) (e : Engine) : List (Nat × Word) :=
  [(0x00, BitVec.ofNat 16 Ctl.run.code), (0x02, 0), (0x04, 0), (0x06, 0), (0x08, 0), (0x0A, 0),
    (0x10, BitVec.ofNat 16 x.round.toNat)] ++ x.clock.words ++
  [(0x18, (e.chan .A).word), (0x1A, (e.chan .B).word), (0x1C, BitVec.ofNat 16 e.held.length),
    (0x1E, e.survey.word), (0x20, BitVec.ofNat 16 e.log.length), (0x22, BitVec.ofNat 16 e.reserved)]

/-- The engine that enters RUN, with START's writes in their order (R56, R62, R119, R143, R165). -/
def Engine.enterRun (x : Front) (e : Engine) (k : Commit) : Engine :=
  let idle (ch : Channel) : Channel := { ch with state := .idle }
  let e : Engine := { e with
    pairs := k.pairs, log := k.log, reserved := 0, deskHeld := List.replicate 8 0,
    channels := ⟨idle e.channels.a, idle e.channels.b⟩ }
  let e := Drive.all.foldl (fun (e : Engine) d => e.setDrive d ((e.drive d).atStart x d)) e
  let e := e.headerWrite x (e.runHeader x) none
  let e := (List.range 8).foldl (fun (e : Engine) d => e.writeDesk x d) e
  Drive.all.foldl (fun (e : Engine) d => e.writeStatus x d none) e

/-- START's decision, with the image entries read: the first check that fails ends it, otherwise the part
enters RUN (R163, R165). -/
def State.decideStart (s : State) (area : AreaData) (image : List Word) : State :=
  match checkArea s.engine.pairs area image with
  | .error (code, item) => s.failStart code item
  | .ok k =>
    let x := s.front.enterRun k
    { s with front := x, engine := s.engine.enterRun x k }.settle

/-- The length asks for a read of the image: there are entries to read, and it is not itself a fault (R62). -/
def imageAsked (area : AreaData) : Bool :=
  decide (1 ≤ imageLength area) && decide (imageLength area ≤ Config.logCapacity)

/-- The tables of stage 2 have been read: where stages 3 and 4 pass, the image entries are read next, as many
as the length says (R62, R163). -/
def State.startTables (s : State) (area : AreaData) : State :=
  match checkTables s.engine.pairs area with
  | .error (code, item) => s.failStart code item
  | .ok _ =>
    if imageAsked area then
      let x : Front := { s.front with starting := .imaging area }
      { s with front := x, engine := s.engine.imageRead x (imageLength area) }
    else s.decideStart area []

/-- A read of START has completed, and START goes on with what it returned. -/
def State.startRead (s : State) (f : State → State) : State :=
  match s.await (fun n => n == .startRead) with
  | none => s
  | some (_, s) => f s

/-- START_READ_COMPLETE (R57, R62, R124, R163 to R165). -/
def execStartReadComplete (read : StartRead) (s : State) : Result :=
  .next <|
    match s.front.ctl, s.front.starting, read with
    | .starting, .reading, .tables area => s.startRead fun s => s.startTables area
    | .starting, .imaging area, .image words => s.startRead fun s => s.decideStart area words
    | _, _, _ => s

/-- CONFIG_ERROR (R165): the failed START's header write has completed. -/
def execConfigError (s : State) : Result :=
  .next <|
    match s.await (fun n => n == .configError) with
    | none => s
    | some (_, s) => { s with engine := s.engine.setAttention attnConfigError }

/-! ### STOP and ABORT_ALL (R28, R29) -/

/-- Finish a held order that waits (R20, R28, R29). -/
def Engine.finishIfWaiting (x : Front) (e : Engine) (slot : Nat) (code : FinishCode) : Engine :=
  match e.order? slot with
  | none => e
  | some o => if o.finish.isNone && !(o.state == .running) then e.finishWaiting x slot code false else e

/-- The roster's part of STOP (R28). -/
def Engine.stopAll (x : Front) (e : Engine) : Engine :=
  (e.held.map Order.slot).foldl (fun e slot => e.finishIfWaiting x slot .stopped) e

/-- STOP (R28, R119, R159, R161, R162). -/
def execStop (s : State) : Result :=
  .next <|
    if s.front.hears ∧ s.front.ctl = .run then
      let x : Front := { s.front with ctl := .draining }
      let e := s.engine.writeCtl x .draining
      let e := e.setSurvey x e.survey.stop
      { s with front := x, engine := e.stopAll x }.settle
    else s

/-- The roster's part of ABORT_ALL at one order: a waiting order finishes, a running one is marked (R29). -/
def Engine.abortOrder (x : Front) (e : Engine) (slot : Nat) : Engine :=
  match e.order? slot with
  | none => e
  | some o =>
    if o.finish.isSome then e
    else if o.state = .running then
      (e.updOrder slot fun o => { o with withdrawMark := some .aborted }).stopOrder x slot
    else e.finishWaiting x slot .aborted false

/-- ABORT_ALL (R29, R162). -/
def execAbortAll (s : State) : Result :=
  .next <|
    if s.front.hears ∧ s.front.active then
      let x : Front := { s.front with actionQ := [] }
      let e := (s.engine.held.map Order.slot).foldl (fun e slot => e.abortOrder x slot) s.engine
      { s with front := x, engine := e }.settle
    else s

/-! ### Register writes (R162, R167 to R169, R176) -/

/-- A host write of a word into a register arrives: its command joins the queue, and a word that names none
leaves no trace (R162, R176). `moved` is the operand of RESET. -/
def State.hostWrite (s : State) (r : Register) (w : Word) (moved : Nat) : State :=
  { s with pending := s.pending ++ (r.write? w moved).toList }

/-- AREA_BASE_WRITE (R167, R176). -/
def execAreaBaseWrite (w : Word) (s : State) : Result :=
  .next <|
    if s.front.hears ∧ s.front.ctl = .config then { s with front := { s.front with areaBase := w.setWidth 12 } }
    else s

/-- ACTION_WRITE (R168). -/
def execActionWrite (w : Word) (s : State) : Result :=
  .next <|
    if s.front.hears ∧ s.front.active then
      if s.front.actionQ.length < Config.actionCapacity then
        { s with front := { s.front with actionQ := s.front.actionQ ++ [w] } }
      else { s with engine := s.engine.setAttention attnActionLost }
    else s

/-- DONE_CLEAR (R26, R169). -/
def execDoneClear (high : Bool) (w : Word) (s : State) : Result :=
  .next <| if s.front.hears then { s with front := s.front.clearDone high w } else s

/-- ATTENTION_CLEAR (R169, R176). -/
def execAttentionClear (w : Word) (s : State) : Result :=
  .next <| if s.front.hears then { s with engine := s.engine.clearAttention w } else s

/-! ### Resets (R30, R173) -/

/-- The memory when a reset ends the access in progress: `moved` words of a record, or the channel's word
when `moved` is not 0, had reached memory (log 25). -/
def State.landed (s : State) (moved : Nat) : List Host.Cell :=
  match s.engine.port.inProgress, s.engine.port.queue with
  | some .record, r :: _ => memAccesses s.mem (r.words.take moved)
  | some (.word c), _ => if moved = 0 then s.mem else (s.moveWord c).mem
  | _, _ => s.mem

/-- The part after a reset, with the AREA BASE value and the level of the reset line given (R173). -/
def State.resetTo (s : State) (base : BitVec 12) (line : Bool) (moved : Nat) : State :=
  { pending := s.pending,
    front := { Front.resetWith base s.front.pins with resetLine := line },
    engine := Engine.resetWith (s.engine.chan .A).buffers (s.engine.chan .B).buffers s.engine.freeIndex,
    mem := s.landed moved }

/-- RESET (R173): the bus cycle in progress is completed, and AREA BASE is kept. -/
def execReset (moved : Nat) (s : State) : Result :=
  .next <| if s.front.hears then s.resetTo s.front.areaBase false (max 1 moved) else s

/-- RESET_LINE (R173). -/
def execResetLine (moved : Nat) (s : State) : Result :=
  .next (s.resetTo 0 true moved)

/-- RESET_LINE_RELEASE (R173). -/
def execResetLineRelease (s : State) : Result :=
  .next { s with front := { s.front with resetLine := false } }

end Sys2Proof.Machine
end

