-- ==== Sys2Proof/Machine/Intake.lean ====
section
/-! DEFINITION. The order intake: taking an action, the checks of a posted order, acceptance, refusal,
immediate orders, and the other actions (R7 to R22, R156, R159, R176). -/

namespace Sys2Proof.Machine

/-! ### Taking an action (R7, R9) -/

/-- The intake may take an action: every memory write for the one before has completed (R7). The last of
them is the last-action record, or, where a WITHDRAW has finished an order, the last count write of that
finish (R9, R24; log 45). -/
def State.intakeReady (s : State) : Option State :=
  match s.front.intake with
  | .free => some s
  | .recording => (s.await (fun n => n == .lastAction)).map Prod.snd
  | .reading _ => none
  | .closing _ => none
  | .finishing _ => none

/-- The front with the first action taken off the queue. -/
def Front.popAction (x : Front) : Front := { x with actionQ := x.actionQ.tail, intake := .free }

/-- Take the action at the head of the queue, if it is one of the row's and the intake can take it. -/
def State.takeAction (s : State) (row : Word → Bool) : Option (Word × State) :=
  match s.front.actionQ with
  | [] => none
  | w :: _ =>
    if s.front.active && row w then
      s.intakeReady.map fun s => (w, { s with front := s.front.popAction })
    else none

/-- The last-action record is written (R9). -/
def State.answer (s : State) (w : Word) (o : ActionOutcome) : State :=
  { s with
    front := { s.front with intake := .recording },
    engine := s.engine.writeLastAction s.front w o }

/-- An action taken in RUN has its effect; in DRAINING it is answered NOT_RUNNING (R7). -/
def State.act (s : State) (row : Word → Bool) (f : State → Word → State) : State :=
  match s.takeAction row with
  | none => s
  | some (w, s) => if s.front.ctl = .run then (f s w).settle else s.answer w .notRunning

/-- Which row an action word belongs to (R7, R176): a slot action has an operand of at most 31. -/
def slotAction (code : Nat) (w : Word) : Bool := actionCode w == code && decide (actionOperand w ≤ 31)

/-- The survey actions (R7). -/
def surveyAction (code : Nat) (w : Word) : Bool := actionCode w == code

/-- A code that names no action (R7). -/
def unknownCode (w : Word) : Bool := actionCode w == 0 || decide (6 < actionCode w)

/-- An action the intake answers BAD_ACTION in RUN (R7, R176). -/
def badActionWord (w : Word) : Bool :=
  unknownCode w || (decide (actionCode w ≤ 3) && decide (31 < actionOperand w))

/-! ### The checks of a posted order (R11 to R16) -/

/-- A check as a step: the refusal code when it fails. -/
def require (ok : Bool) (code : FinishCode) : Except FinishCode Unit := if ok then .ok () else .error code

/-- Check 6 (R13). -/
def rangeOk (r : DriveRecord) (f : OrderFields) : Bool :=
  match f.kind with
  | .read => runOk
  | .write => runOk
  | .check => runOk
  | .retire => runOk
  | .format => decide (f.cylinder < r.cylinders) && decide (f.surface < r.surfaces)
  | .seek => decide (f.cylinder < r.cylinders)
  | .recalibrate => true
  | .mend => true
  | .lock => true
  | .unlock => true
  | .detach => true
where
  runOk : Bool :=
    decide (f.cylinder < r.cylinders) && decide (f.surface < r.surfaces) &&
    decide (r.firstSector ≤ f.firstSector) && decide (f.firstSector < r.firstSector + r.sectors) &&
    decide (1 ≤ f.count) && decide (f.count ≤ 32) &&
    decide (f.start r + f.count - 1 < r.cylinders * r.surfaces * r.sectors)

/-- Check 7 (R14). -/
def bufferOk (r : DriveRecord) (f : OrderFields) : Bool :=
  if f.kind = .read ∨ f.kind = .write then
    f.buffer % 2 == 0 && decide (f.buffer + f.count * r.size ≤ Config.hostBytes)
  else true

/-- Check 8 (R15), on the fields as read. -/
def standingOk (kind : Kind) (raw : RawOrder) : Bool :=
  !raw.standing ||
  ((kind == .read || kind == .write || kind == .check) &&
    decide (raw.roundMask ≤ 63) && decide (raw.roundValue ≤ 63))

/-- The pair manager's answer to a DETACH (R16). An order whose finish is decided no longer counts as RUNNING
(log 46). PAIR_BUSY goes before R16's word that a DETACH repeated passes (log 56). -/
def Engine.detachRefusal (e : Engine) (d : Drive) : Option FinishCode :=
  let r := e.pairs.get d.pair
  if (e.log.any fun l => l.pair == d.pair && l.good != d.side) || (r.mode == .detached && r.kept != d.side)
  then some .pairSplit
  else if e.held.any fun o =>
      o.state == .running && o.finish.isNone && o.fields.pairCopy && o.pair == d.pair
  then some .pairBusy
  else none

/-- Check 10 (R16). -/
def Engine.kindRefusal (x : Front) (e : Engine) (f : OrderFields) : Option FinishCode :=
  match f.kind with
  | .lock => if (x.record f.drive).aux = .doorLock then none else some .noLock
  | .unlock => if (x.record f.drive).aux = .doorLock then none else some .noLock
  | .detach => e.detachRefusal f.drive
  | .read => none
  | .write => none
  | .check => none
  | .format => none
  | .retire => none
  | .seek => none
  | .recalibrate => none
  | .mend => none

/-- The ten checks in their sequence (R11; log 15). -/
def checkOrder (x : Front) (e : Engine) (raw : RawOrder) : Except FinishCode OrderFields := do
  let (kind, policy) ← match kindOf? raw.kind, policyOf? raw.policy with
    | some k, some p => .ok (k, p)
    | _, _ => .error .badKind
  let drive ← match Drive.ofNumber? raw.drive with
    | some d => if (x.record d).present then .ok d else .error .badDrive
    | none => .error .badDrive
  let desk ← match x.tables.desks[raw.desk]? with
    | some d => if d.enabled then .ok d else .error .badDesk
    | none => .error .badDesk
  require (decide (e.deskHeld.getD raw.desk 0 < desk.limit)) .deskFull
  let f := raw.fields kind policy drive
  let pair := e.pairs.get drive.pair
  require (!f.pairCopy || pair.bound) .notPaired
  require (f.pairCopy || !kind.writes || !pair.bound || pair.mode == .detached) .notSingle
  require (rangeOk (x.record drive) f) .badRange
  require (bufferOk (x.record drive) f) .badBuffer
  require (standingOk kind raw) .badStanding
  require (!(f.drop && x.clock.phase == .closed)) .late
  match e.kindRefusal x f with
  | some code => .error code
  | none => .ok f

/-! ### Acceptance, refusal, immediate orders (R5, R6, R17 to R19, R74) -/

/-- The record of an accepted order (R5). -/
def Order.accepted (e : Engine) (slot : Nat) (f : OrderFields) : Order :=
  let gen (c : Side) : Option (BitVec 8) :=
    let d : Drive := ⟨c, f.drive.pair⟩
    if f.covers d then some (e.drive d).generation else none
  { slot := slot, fields := f, state := if f.standing then .waitingRound else .queued, age := 0,
    generation := ⟨gen .A, gen .B⟩, progress := freshProgress, withdrawMark := none, changed := false,
    sectorsDone := 0, retries := 0, missed := 0, retiredMet := 0, logged := 0, runs := 0,
    missedRounds := 0, served := BySide.both false, roomNote := false, stale := false,
    pendingCode := none, changedMedium := false, plan := BySide.both false, mirrored := false,
    waiter := none, sideFailure := BySide.both none, resolved := [],
    reservation := 0, finish := none, cursor := none, turn := none }

/-- The drive held count of one drive changes where the order covers it (R6). -/
def Engine.countDrive (x : Front) (e : Engine) (f : OrderFields) (g : Nat → Nat) (d : Drive) : Engine :=
  if f.covers d then e.updDrive x d fun k => { k with heldCount := g k.heldCount } else e

/-- The held counts change and are written: the desk's, the total, and the drives' (R6). -/
def Engine.writeHeld (x : Front) (e : Engine) (f : OrderFields) (g : Nat → Nat) : Engine :=
  let e := { e with deskHeld := e.deskHeld.set f.desk (g (e.deskHeld.getD f.desk 0)) }
  let e := (e.writeDesk x f.desk).writeTotal x
  Drive.all.foldl (fun e d => e.countDrive x f g d) e

/-- The slot phase of an accepted order (R18). -/
def acceptedPhase (f : OrderFields) : Nat := if f.standing then phaseStanding else phaseQueued

/-- The roster accepts an order (R18). The held counts, and with them the door lock, are handed over when the
phase write has been issued; its completion is not waited for (R6, R148; log 65). -/
def Engine.accept (x : Front) (e : Engine) (slot : Nat) (f : OrderFields) : Engine :=
  let e := { e with held := e.held ++ [Order.accepted e slot f] }
  (e.writePhase x slot (acceptedPhase f) none).writeHeld x f (fun n => n + 1)

/-- Results, phase and DONE bit of a finish that never joined the list (R17, R19). -/
def Engine.finishDirect (x : Front) (e : Engine) (slot : Nat) (r : Results) (notify : Bool) (how : DoneHow) :
    Engine :=
  (e.writeResults x slot r).writePhase x slot phaseFinished (some (.doneBit slot notify how false))

/-- A BOUND-WAIT order of a detached pair returns to QUEUED, its channel freed and its reservation returned
(R53, R74). -/
def Engine.unwait (x : Front) (e : Engine) (p : PairId) (slot : Nat) : Engine :=
  match e.order? slot with
  | none => e
  | some o =>
    if o.fields.pairCopy && o.pair == p && o.state == .boundWait && o.finish.isNone then
      let e : Engine := (e.unreserve x slot).updOrder slot fun o =>
        { o with state := .queued, waiter := none, plan := BySide.both false, mirrored := false }
      match o.waiter with
      | some c => e.freeWaiter x c slot
      | none => e
    else e

/-- A DETACH is applied (R74). On a pair that is DETACHED with the same kept side it changes nothing, an
order in BOUND-WAIT included (R16; log 18). -/
def Engine.detach (x : Front) (e : Engine) (d : Drive) : Engine :=
  if (e.pairs.get d.pair).keeps d.side then e
  else
    let e := e.pairDetach x d
    (e.held.map Order.slot).foldl (fun e slot => e.unwait x d.pair slot) e

/-- The served side an immediate order shows (R19). -/
def immediateServed (f : OrderFields) : Nat :=
  if f.kind = .detach then servedCode ((BySide.both false).set f.drive.side true) else 0

/-- An immediate order has its effect (R19, R148). -/
def Engine.immediate (x : Front) (e : Engine) (f : OrderFields) : Engine :=
  match f.kind with
  | .lock => e.updDrive x f.drive fun k => { k with mountHold := true }
  | .unlock => e.updDrive x f.drive fun k => { k with mountHold := false }
  | .detach => e.detach x f.drive
  | .read => e
  | .write => e
  | .check => e
  | .format => e
  | .retire => e
  | .seek => e
  | .recalibrate => e
  | .mend => e

/-- A finish outside the list is on its way: the intake waits for its DONE bit (R9). -/
def State.closing (s : State) (w : Word) : State :=
  { s with front := { s.front with intake := .closing w } }

/-- The decision on a posted order (R10, R11, R17 to R19). -/
def State.decidePost (s : State) (w : Word) (words : List Word) : State :=
  let slot := actionOperand w
  let raw := rawOrder words
  let x := s.front
  if raw.phase ≠ phasePosted then s.answer w .notPosted
  else
    match checkOrder x s.engine raw with
    | .error code =>
      { s with engine := s.engine.finishDirect x slot (Results.bare code 0) raw.notify .refused }.closing w
    | .ok f =>
      if f.kind.immediate then
        let r := Results.bare .ok (immediateServed f)
        let e := (s.engine.immediate x f).finishDirect x slot r raw.notify .immediate
        { s with engine := e }.closing w
      else { s with engine := s.engine.accept x slot f }.answer w .taken

/-! ### The rows -/

/-- POST (R10). -/
def execPost (s : State) : Result :=
  .next <| s.act (slotAction 1) fun s w =>
    if (s.engine.order? (actionOperand w)).isSome then s.answer w .alreadyHeld
    else
      { s with
        front := { s.front with intake := .reading w },
        engine := s.engine.issue .slotRead (areaReads s.front (slotOffset (actionOperand w)) 16)
          (some .slotRead) }

/-- SLOT_READ_COMPLETE (R8, R11): outside RUN the POST is answered NOT_RUNNING (log 16). -/
def execSlotReadComplete (words : List Word) (s : State) : Result :=
  .next <|
    match s.front.intake with
    | .reading w =>
      match s.await (fun n => n == .slotRead) with
      | none => s
      | some (_, s) =>
        if s.front.ctl = .run then (s.decidePost w words).settle else s.answer w .notRunning
    | .free => s
    | .closing _ => s
    | .recording => s
    | .finishing _ => s

/-- WITHDRAW at the roster (R20, R21). -/
def Engine.withdraw (x : Front) (e : Engine) (slot : Nat) : Engine × ActionOutcome :=
  match e.order? slot with
  | none => (e, .notHeld)
  | some o =>
    if o.finish.isSome then (e, .notHeld)
    else if o.state = .running then
      let e : Engine := e.updOrder slot fun o =>
        { o with withdrawMark := some (o.withdrawMark.getD .withdrawn) }
      (e.stopOrder x slot, .taken)
    else (e.finishWaiting x slot .withdrawn false, .taken)

/-- The finish of a slot's held order has been decided (R4). -/
def Engine.finishDecided (e : Engine) (slot : Nat) : Bool := (e.order? slot).any fun o => o.finish.isSome

/-- The last-action record of a WITHDRAW (R9). Where it has finished its order, the intake goes on waiting for
the writes of that finish that follow its DONE bit (R7, R24; log 45). -/
def State.answerWithdraw (s : State) (w : Word) (o : ActionOutcome) : State :=
  if o = .taken ∧ s.engine.finishDecided (actionOperand w) = true then
    { s with
      front := { s.front with intake := .finishing (actionOperand w) },
      engine := s.engine.recordAction s.front w o none }
  else s.answer w o

/-- WITHDRAW (R20, R21). -/
def execWithdraw (s : State) : Result :=
  .next <| s.act (slotAction 2) fun s w =>
    let r := s.engine.withdraw s.front (actionOperand w)
    { s with engine := r.1 }.answerWithdraw w r.2

/-- REPOST at the roster (R22). -/
def Engine.repost (e : Engine) (slot : Nat) : Engine × ActionOutcome :=
  match e.order? slot with
  | none => (e, .notHeld)
  | some o =>
    if o.finish.isSome then (e, .notHeld)
    else if o.fields.standing then (e.updOrder slot fun o => { o with changed := true }, .taken)
    else (e, .notStanding)

/-- REPOST (R22). -/
def execRepost (s : State) : Result :=
  .next <| s.act (slotAction 3) fun s w =>
    let r := s.engine.repost (actionOperand w)
    { s with engine := r.1 }.answer w r.2

/-- The drives of a survey mask whose knowledge is not UNCONFIGURED (R156). -/
def Engine.effectiveMask (e : Engine) (w : Word) : ByDrive Bool :=
  Drive.all.foldl (fun m d =>
    m.setDrive d ((surveyMask w).drive d && !((e.drive d).state == .unconfigured))) (BySide.allDrives false)

/-- A survey action at the survey unit (R156). -/
def Engine.takeSurvey (x : Front) (e : Engine) (m : SurveyMode) (w : Word) : Engine × ActionOutcome :=
  let mask := e.effectiveMask w
  if maskNat mask = 0 then (e, .badMask)
  else if e.survey.mode = .off then
    (e.setSurvey x { e.survey with mode := m, mask := mask }.beginPass, .taken)
  else (e.setSurvey x { e.survey with request := some (m, mask) }, .taken)

/-- SURVEY_ONCE (R156). -/
def execSurveyOnce (s : State) : Result :=
  .next <| s.act (surveyAction 4) fun s w =>
    let r := s.engine.takeSurvey s.front .once w
    { s with engine := r.1 }.answer w r.2

/-- SURVEY_LOOP (R156). -/
def execSurveyLoop (s : State) : Result :=
  .next <| s.act (surveyAction 5) fun s w =>
    let r := s.engine.takeSurvey s.front .loop w
    { s with engine := r.1 }.answer w r.2

/-- SURVEY_STOP (R159). -/
def execSurveyStop (s : State) : Result :=
  .next <| s.act (surveyAction 6) fun s w =>
    { s with engine := s.engine.setSurvey s.front s.engine.survey.stop }.answer w .taken

/-- BAD_ACTION (R7, R176): an unknown code is answered so in DRAINING too; a slot operand above 31 is there
answered NOT_RUNNING (log 14). -/
def execBadAction (s : State) : Result :=
  .next <|
    match s.takeAction badActionWord with
    | none => s
    | some (w, s) =>
      s.answer w (if s.front.ctl = .run ∨ unknownCode w = true then .badAction else .notRunning)

end Sys2Proof.Machine
end

