-- ==== Sys2Proof/Machine/Bus.lean ====
section
/-! DEFINITION. The memory port's grants and errors, FAULT, and the acts that wait for a write to have
completed (R24, R26, R98, R120, R129, R130, R141, R154, R159, R171, R172). -/

namespace Sys2Proof.Machine

/-! ### Grants (R171) -/

/-- BUS_GRANT (R171). -/
def execBusGrant (s : State) : Result := .next s.grant

/-! ### FAULT (R120, R172) -/

/-- A channel at the entry to FAULT: it stops at once, its select, direction, head load and surface lines as
they stand (R120, R142; log 44). -/
def Channel.fault (ch : Channel) : Channel :=
  { ch.letGo with state := .stopped, claim := none, writeGate := false, writeData := [] }

/-- The address a failed word was to be moved at, as 20 bits (R172). -/
def Request.faultAddress (r : Request) (word : Nat) : Nat :=
  busAddress ((r.words[word]?.map Access.addr).getD 0)

/-- The header words of the fault record (R172, R174). -/
def faultWords (r : Request) (word : Nat) : List (Nat × Word) :=
  let a := r.faultAddress word
  [(0x00, BitVec.ofNat 16 Ctl.fault.code), (0x02, BitVec.ofNat 16 r.kind.faultCode),
    (0x04, BitVec.ofNat 16 a), (0x06, BitVec.ofNat 16 (a / 65536))]

/-- The port with nothing waiting and nothing in progress. -/
def Port.discard (p : Port) : Port := { p with queue := [], notices := [], inProgress := none }

/-- The front in FAULT (R7, R172), with the note whether the edition clock was counting up to it (R97). -/
def Front.fault (x : Front) : Front := { x with ctl := .fault, starting := .off, faultActive := x.active }

/-- The engine at the entry to FAULT, with the fault record issued (R172). -/
def Engine.fault (x : Front) (e : Engine) (r : Request) (word : Nat) : Engine :=
  let e : Engine := { e with
    port := e.port.discard, channels := ⟨e.channels.a.fault, e.channels.b.fault⟩ }
  (e.setAttention attnFault).headerWrite x (faultWords r word) none

/-- The record request at the head of the queue is the access on the bus. -/
def State.onRecord (s : State) : Bool := s.engine.port.inProgress == some .record

/-- A word of the channel is the access on the bus. -/
def State.onWord (c : Side) (s : State) : Bool := s.engine.port.inProgress == some (.word c)

/-- BUS_ERROR_RECORD (R172): `word` words of the request on the bus had moved. A bus error on the fault
record itself abandons it. -/
def execBusErrorRecord (word : Nat) (s : State) : Result :=
  .next <|
    match s.engine.port.queue with
    | [] => s
    | r :: _ =>
      if word < r.words.length then
        let s := s.serveTo State.onRecord
        let mem := memAccesses s.mem (r.words.take word)
        if s.front.ctl = .fault then
          { s with mem := mem, engine := { s.engine with port := s.engine.port.discard } }
        else
          let x := s.front.fault
          { s with front := x, mem := mem, engine := s.engine.fault x r word }
      else s

/-! ### Channel traffic (R129, R130, R141) -/

/-- MEMORY_ERROR (R141): the channel's word on the bus has met a bus error. The words moved before it stay in
memory. -/
def execMemoryError (c : Side) (s : State) : Result :=
  .next <|
    match s.front.active, (s.engine.chan c).transfer? with
    | true, some t => (s.serveTo (State.onWord c)).portIdle.engineEvent fun x e => e.bufferError x c t
    | _, _ => s

/-- Every word of the channel's first transfer in a direction has moved. -/
def State.moved (c : Side) (toHost : Bool) (s : State) : Bool :=
  ((s.engine.chan c).transferOf? toHost).any fun t => decide (t.words ≤ t.moved)

/-- The completion of the channel's first transfer in a direction, once its words have moved (R129 to R131,
R171). -/
def State.transferDone (s : State) (c : Side) (toHost : Bool)
    (f : Front → Engine → Transfer → Engine) : State :=
  if s.front.active && ((s.engine.chan c).transferOf? toHost).isSome then
    let s := s.serve (State.moved c toHost)
    match (s.engine.chan c).transferOf? toHost with
    | none => s
    | some t => s.engineEvent fun x e => f x e t
  else s

/-- BUFFER_COPY_COMPLETE (R66, R129). -/
def execBufferCopyComplete (c : Side) (s : State) : Result :=
  .next (s.transferDone c true fun x e t => e.copied x c t)

/-- BUFFER_FETCH_COMPLETE (R130), with the bytes fetched. -/
def execBufferFetchComplete (c : Side) (data : List Byte) (s : State) : Result :=
  .next (s.transferDone c false fun x e t => e.fetched x c t data)

/-! ### After a write has completed -/

/-- A LATE finish of the earliest close still open has set its DONE bit; with the last one CLOSE is set
(R98). -/
def Engine.lateDone (e : Engine) : Engine :=
  match e.closes with
  | [] => e
  | n :: rest =>
    if n ≤ 1 then { e with closes := rest }.setAttention attnClose else { e with closes := (n - 1) :: rest }

/-- What a claim in flight learns of an order that leaves the list (R48). -/
def Claim.orderLeft (slot : Nat) (cl : Claim) : Claim := if cl.slot = slot then { cl with held := false } else cl

/-- The claims in flight for an order that leaves the list find it no longer held, also when its slot is posted
again before the roster takes them (R48). -/
def Engine.dropClaims (e : Engine) (slot : Nat) : Engine :=
  let drop (ch : Channel) : Channel := { ch with claim := ch.claim.map (Claim.orderLeft slot) }
  (e.updChan .A drop).updChan .B drop

/-- An order whose finish has been decided leaves the list, and the held counts are lowered and written (R4,
R6, R24). -/
def Engine.leaveList (x : Front) (e : Engine) (slot : Nat) : Engine :=
  match e.order? slot with
  | none => e
  | some o =>
    if o.finish.isSome then
      let e := { e with held := e.held.filter fun o => !(o.slot == slot) }.dropClaims slot
      e.writeHeld x o.fields fun n => n - 1
    else e

/-- The word of the action whose finish the intake waits for. -/
def Intake.closingWord? : Intake → Option Word
  | .closing w => some w
  | .free => none
  | .reading _ => none
  | .recording => none
  | .finishing _ => none

/-- The intake records the outcome of a refusal or an immediate order (R9, R17, R19). -/
def State.answerClosing (s : State) (o : ActionOutcome) : State :=
  match s.front.intake.closingWord? with
  | some w => s.answer w o
  | none => s

/-- An order leaves the list. Where a WITHDRAW finished it, the count writes are the last of that action, and
the intake waits for them alone (R6, R7, R24; log 45). -/
def State.orderLeaves (s : State) (slot : Nat) : State :=
  let e := s.engine.leaveList s.front slot
  if s.front.intake = .finishing slot then
    { s with front := { s.front with intake := .recording }, engine := e.tellLast .lastAction }
  else { s with engine := e }

/-- What follows the setting of a DONE bit (R6, R17, R19, R24, R86). -/
def State.afterDone (s : State) (slot : Nat) : DoneHow → State
  | .leaves => s.orderLeaves slot
  | .stays => s
  | .refused => s.answerClosing .refused
  | .immediate => s.answerClosing .taken

/-- DONE_BIT_SET (R24, R26, R98). -/
def execDoneBitSet (s : State) : Result :=
  .next <|
    match s.await Notice.isDoneBit with
    | some (.doneBit slot notify how late, s) =>
      let s := { s with front := s.front.setDone slot notify }
      let s := s.afterDone slot how
      (if late then { s with engine := s.engine.lateDone } else s).settle
    | _ => s

/-- DRIVE_ATTENTION (R154). -/
def execDriveAttention (d : Drive) (s : State) : Result :=
  .next <|
    match s.await (fun n => n == .attention d) with
    | none => s
    | some (_, s) => { s with engine := s.engine.setAttention (attnDrive d) }

/-- SURVEY_DONE (R159). -/
def execSurveyDone (s : State) : Result :=
  .next <|
    match s.await (fun n => n == .surveyDone) with
    | none => s
    | some (_, s) => { s with engine := s.engine.setAttention attnSurveyDone }

end Sys2Proof.Machine
end

