-- ==== Sys2Proof/Machine/Timebase.lean ====
section
/-! DEFINITION. The timebase: age ticks, round ticks, head unload timers and touches, and the survey's
waiting time (R40, R41, R80 to R85, R115, R119, R157). -/

namespace Sys2Proof.Machine

/-! ### Age ticks (R40, R41, R115, R157) -/

/-- The roster states in which an order ages (R40). -/
def RosterState.ages : RosterState → Bool
  | .queued => true
  | .boundWait => true
  | .running => false
  | .waitingRound => false

/-- One age tick at an order (R40). -/
def Order.ageTick (o : Order) : Order := if o.state.ages then { o with age := min 255 (o.age + 1) } else o

/-- One age tick at an unload timer (R115); its expiry is HEAD_UNLOAD_EXPIRY. -/
def Timer.ageTick : Timer → Timer
  | .running n => .running (n - 1)
  | .stopped => .stopped
  | .pending => .pending

/-- The survey's next step waits: it is not itself the step in hand (R157). -/
def Survey.waits (v : Survey) : Bool := v.next.isSome && v.step.isNone

/-- One age tick at the survey unit, in RUN (R157). -/
def Survey.ageTick (v : Survey) : Survey :=
  if v.waits then { v with waiting := min Config.surveyPatience (v.waiting + 1) } else v

/-- The timers after an age tick. -/
def ageTimers (t : ByDrive Timer) : ByDrive Timer :=
  ⟨⟨t.a.p0.ageTick, t.a.p1.ageTick⟩, ⟨t.b.p0.ageTick, t.b.p1.ageTick⟩⟩

/-- AGE_TICK (R40, R41). -/
def execAgeTick (s : State) : Result :=
  .next <|
    if s.front.active then
      let e := s.engine
      { s with engine := { e with
          held := e.held.map Order.ageTick, timers := ageTimers e.timers,
          survey := if s.front.ctl = .run then e.survey.ageTick else e.survey } }
    else s

/-- SURVEY_WAIT_EXPIRY (R157): the count of 10 itself decides at the channel's next free moment (log 31). -/
def execSurveyWaitExpiry (s : State) : Result := .next s.settle

/-! ### Head unload (R115) -/

/-- An unload timer has reached 0 (R115). -/
def Engine.unloadExpiry (x : Front) (e : Engine) (d : Drive) : Engine :=
  let ch := e.chan d.side
  if e.timers.drive d = .running 0 then
    if ch.state = .surveyStep ∧ ch.selected = some d.pair then
      ((e.updChan d.side fun ch => { ch with headLoad := false }).setTimer d .stopped).headUnloaded x d
    else if ch.free ∧ ch.touch.isNone then e.startTouch d.side d.pair false
    else e.setTimer d .pending
  else e

/-- HEAD_UNLOAD_EXPIRY (R115). -/
def execHeadUnloadExpiry (d : Drive) (s : State) : Result :=
  .next (s.engineEvent fun x e => e.unloadExpiry x d)

/-- What was given to the channel during the touch begins; a stop asked meanwhile is met here (R115, R116;
log 42). It begins before an unload of the channel's other drive that has come to be pending during the touch,
which waits till the channel is next IDLE with nothing given to it (log 23). -/
def Engine.startDeferred (x : Front) (e : Engine) (c : Side) : Engine :=
  match (e.chan c).deferred with
  | none => e
  | some b =>
    let e : Engine := e.updChan c fun ch => { ch with deferred := none }
    if (e.chan c).stopping then (e.setAct c .none).release x c else e.start x c b

/-- A touch ends in RUN or DRAINING (R115). -/
def Engine.touchEnd (x : Front) (e : Engine) (c : Side) : Engine :=
  match (e.chan c).touch with
  | none => e
  | some t =>
    ((e.updChan c fun ch => { ch with touch := none }).headUnloaded x ⟨c, t.pair⟩).startDeferred x c

/-- A touch of entering CONFIG ends; the status record is written with the others (R119, R153). -/
def Engine.configTouchEnd (x : Front) (e : Engine) (c : Side) : Engine :=
  match (e.chan c).touch with
  | none => e
  | some t =>
    let d : Drive := ⟨c, t.pair⟩
    let e := (e.updChan c fun ch => { ch with touch := none }).changeDrive x d fun k =>
      { k with loaded := false }
    { e with report := e.report.setDrive d true }.configChannels x

/-- UNLOAD_TOUCH_END (R115, R119). -/
def execUnloadTouchEnd (c : Side) (s : State) : Result :=
  .next <|
    match s.front.ctl with
    | .run => s.engineEvent fun x e => e.touchEnd x c
    | .draining => s.engineEvent fun x e => e.touchEnd x c
    | .config => { s with engine := s.engine.configTouchEnd s.front c }.tryStart
    | .starting => { s with engine := s.engine.configTouchEnd s.front c }.tryStart
    | .fault => s

/-! ### Round ticks (R80 to R85) -/

/-- A standing order is due in a round (R81). -/
def OrderFields.dueIn (f : OrderFields) (round : BitVec 6) : Bool :=
  round &&& f.roundMask == f.roundValue &&& f.roundMask

/-- The due check tests an order (R82). -/
def Order.tested (o : Order) (round : BitVec 6) : Bool :=
  o.fields.standing && o.finish.isNone && o.fields.dueIn round

/-- Its refresh mode lets the order run, or count as missed (R83, R85). -/
def Order.refreshes (o : Order) : Bool := !o.fields.changedOnly || o.changed

/-- The order falls due at the tick (R82, R83). -/
def Order.fallsDue (o : Order) (round : BitVec 6) : Bool :=
  o.tested round && o.state == .waitingRound && o.refreshes

/-- The order misses the round (R85). -/
def Order.misses (o : Order) (round : BitVec 6) : Bool :=
  o.tested round && !(o.state == .waitingRound) && o.refreshes

/-- A standing order becomes due (R84). -/
def Order.becomeDue (o : Order) : Order :=
  { o.clearRun with state := .queued, age := 0, changed := false, roomNote := false }

/-- The due check (R82 to R85): due orders go to the tail together, in their order. Their phase writes are
issued in that order too (log 58). -/
def Engine.dueCheck (x : Front) (e : Engine) (round : BitVec 6) : Engine :=
  let due := e.held.filter fun o => o.fallsDue round
  let rest := (e.held.filter fun o => !(o.fallsDue round)).map fun (o : Order) =>
    if o.misses round then { o with missedRounds := min 255 (o.missedRounds + 1) } else o
  let e := { e with held := rest ++ due.map Order.becomeDue }
  due.foldl (fun e o => e.writePhase x o.slot phaseQueued none) e

/-- The next round (R80). -/
def Front.nextRound (x : Front) : Front := { x with round := x.round + 1 }

/-- ROUND_TICK (R80, R82). -/
def execRoundTick (s : State) : Result :=
  .next <|
    if s.front.active then
      let x : Front := s.front.nextRound
      let e := s.engine.headerWrite x [(0x10, BitVec.ofNat 16 x.round.toNat)] none
      { s with front := x, engine := if x.ctl = Ctl.run then e.dueCheck x x.round else e }.settle
    else s

end Sys2Proof.Machine
end

