-- ==== Sys2Proof/Machine/ChannelEvents.lean ====
section
/-! DEFINITION. The rows of the roster's claims, the channels and the drive lines: each an event at the
engine in RUN or DRAINING (R48, R76, R108 to R111, R125, R126, R131, R134, R138, R146, R150, R151, R158). -/

namespace Sys2Proof.Machine

/-- CLAIM (R48 to R50, R54). -/
def execClaim (c : Side) (s : State) : Result :=
  .next (s.engineEvent fun x e => e.takeClaim x c)

/-- The input lines of a drive carry new levels. -/
def Front.setPins (x : Front) (d : Drive) (l : Lines) : Front := { x with pins := x.pins.setDrive d l }

/-- The track-0 line of a channel's selected drive carries a level (R108; log 10). -/
def State.trackLine (s : State) (c : Side) (trk0 : Bool) : State :=
  match s.engine.selectedDrive? c with
  | some d => { s with front := s.front.setPins d { s.front.pins.drive d with trk0 := trk0 } }
  | none => s

/-- STEP_TIME_END (R108, R109, R116). -/
def execStepTimeEnd (c : Side) (trk0 : Bool) (s : State) : Result :=
  .next ((s.trackLine c trk0).engineEvent fun x e => e.stepEnd x c trk0)

/-- SETTLE_END (R109, R110, R112). -/
def execSettleEnd (c : Side) (s : State) : Result :=
  .next (s.engineEvent fun x e => e.settleEnd x c)

/-- HEAD_LOAD_END (R110, R111). -/
def execHeadLoadEnd (c : Side) (s : State) : Result :=
  .next (s.engineEvent fun x e => e.loadEnd x c)

/-- ID_FIELD_READ (R111, R122, R126, R127). -/
def execIdFieldRead (c : Side) (field : FieldRead) (s : State) : Result :=
  .next (s.engineEvent fun x e => e.idField x c field)

/-- DATA_FIELD_READ (R122, R131 to R133, R137). -/
def execDataFieldRead (c : Side) (field : FieldRead) (s : State) : Result :=
  .next (s.engineEvent fun x e => e.dataField x c field)

/-- DATA_FIELD_WRITTEN (R134, R136). -/
def execDataFieldWritten (c : Side) (s : State) : Result :=
  .next (s.engineEvent fun x e => e.dataWritten x c)

/-- PASS_ACROSS (R76). -/
def execPassAcross (c : Side) (s : State) : Result :=
  .next (s.engineEvent fun x e => e.passAcross x c)

/-- SEARCH_TIMEOUT (R138, R139). -/
def execSearchTimeout (c : Side) (sector : Nat) (s : State) : Result :=
  .next (s.engineEvent fun x e => e.searchTimeout x c sector)

/-- INDEX_PULSE (R111, R125, R135, R138, R150, R151, R158). -/
def execIndexPulse (c : Side) (elapsed : Nat) (s : State) : Result :=
  .next (s.engineEvent fun x e => e.indexPulse x c elapsed)

/-- No index pulse has come for 500 ms on a selected, READY drive (R151). -/
def Engine.noIndex (x : Front) (e : Engine) (c : Side) : Engine :=
  match e.selectedDrive? c with
  | none => e
  | some d => if (e.drive d).state = .ready then e.speedFault x d else e

/-- NO_INDEX_TIMEOUT (R151). -/
def execNoIndexTimeout (c : Side) (s : State) : Result :=
  .next (s.engineEvent fun x e => e.noIndex x c)

/-- The write-protect line is found active while a writing kind runs on the drive (R118; log 24). -/
def Engine.protectStops (x : Front) (e : Engine) (d : Drive) : Engine :=
  let ch := e.chan d.side
  match e.orderOf? d.side with
  | none => e
  | some o =>
    if ch.selected = some d.pair ∧ (ch.inPass = true ∨ ch.state = .positioning) ∧
        o.writesOn d.side = true ∧ (e.drive d).writeProtected = true
    then e.failSide x d.side .writeProtected else e

/-- A ready sample in a survey step is counted, and may end it (R158). -/
def Engine.surveySample (x : Front) (e : Engine) (c : Side) : Engine :=
  match (e.chan c).act with
  | .surveying st n => (e.setAct c (.surveying st (n + 1))).trySurveyEnd x c
  | _ => e

/-- The 8 ms sample of a selected drive (R145, R146). The flags go into the record before the ready level
has its effects, so that the status record of a deselection shows them (log 51). -/
def Engine.sample (x : Front) (e : Engine) (d : Drive) (l : Lines) : Engine :=
  if (e.chan d.side).selected = some d.pair then
    (((e.sampleFlags x d l).sampleReady x d l.ready).protectStops x d).surveySample x d.side
  else e

/-- READY_SAMPLE (R145, R146): the lines of the drive carry these levels; they are sampled where the drive
is selected. See log 10. -/
def execReadySample (d : Drive) (l : Lines) (s : State) : Result :=
  .next ({ s with front := s.front.setPins d l }.engineEvent fun x e => e.sample x d l)

/-- 500 ms have passed in a stage of a survey step (R158). -/
def Engine.surveyTimeout (x : Front) (e : Engine) (c : Side) : Engine :=
  match (e.chan c).act with
  | .surveying _ n => (e.setAct c (.surveying .over n)).trySurveyEnd x c
  | _ => e

/-- SURVEY_STEP_TIMEOUT (R158). -/
def execSurveyStepTimeout (c : Side) (s : State) : Result :=
  .next (s.engineEvent fun x e => e.surveyTimeout x c)

/-- NOMINAL_FINAL_FILL_END (R125). -/
def execNominalFinalFillEnd (c : Side) (s : State) : Result :=
  .next (s.engineEvent fun x e => e.finalFillEnd x c)

end Sys2Proof.Machine
end

