-- ==== Sys2Proof/Machine/Dispatch.lean ====
section
/-! DEFINITION. One arm per command: the meaning each calls. -/

namespace Sys2Proof.Machine

/-- A command's effect on everything but the queue. -/
def exec (i : Instr) (s : State) : Host.Outcome State Fault Refusal :=
  match i with
  | .start => Sys2Proof.Machine.execStart s
  | .startReadComplete read => Sys2Proof.Machine.execStartReadComplete read s
  | .stop => Sys2Proof.Machine.execStop s
  | .abortAll => Sys2Proof.Machine.execAbortAll s
  | .reset moved => Sys2Proof.Machine.execReset moved s
  | .clockLoad => Sys2Proof.Machine.execClockLoad s
  | .presetReadComplete preset => Sys2Proof.Machine.execPresetReadComplete preset s
  | .clockRun => Sys2Proof.Machine.execClockRun s
  | .clockHalt => Sys2Proof.Machine.execClockHalt s
  | .areaBaseWrite w => Sys2Proof.Machine.execAreaBaseWrite w s
  | .actionWrite w => Sys2Proof.Machine.execActionWrite w s
  | .doneClear high w => Sys2Proof.Machine.execDoneClear high w s
  | .attentionClear w => Sys2Proof.Machine.execAttentionClear w s
  | .post => Sys2Proof.Machine.execPost s
  | .slotReadComplete words => Sys2Proof.Machine.execSlotReadComplete words s
  | .withdraw => Sys2Proof.Machine.execWithdraw s
  | .repost => Sys2Proof.Machine.execRepost s
  | .surveyOnce => Sys2Proof.Machine.execSurveyOnce s
  | .surveyLoop => Sys2Proof.Machine.execSurveyLoop s
  | .surveyStop => Sys2Proof.Machine.execSurveyStop s
  | .badAction => Sys2Proof.Machine.execBadAction s
  | .resetLine moved => Sys2Proof.Machine.execResetLine moved s
  | .resetLineRelease => Sys2Proof.Machine.execResetLineRelease s
  | .busGrant => Sys2Proof.Machine.execBusGrant s
  | .busErrorRecord word => Sys2Proof.Machine.execBusErrorRecord word s
  | .memoryError c => Sys2Proof.Machine.execMemoryError c s
  | .bufferCopyComplete c => Sys2Proof.Machine.execBufferCopyComplete c s
  | .bufferFetchComplete c data => Sys2Proof.Machine.execBufferFetchComplete c data s
  | .doneBitSet => Sys2Proof.Machine.execDoneBitSet s
  | .driveAttention d => Sys2Proof.Machine.execDriveAttention d s
  | .surveyDone => Sys2Proof.Machine.execSurveyDone s
  | .configError => Sys2Proof.Machine.execConfigError s
  | .ageTick => Sys2Proof.Machine.execAgeTick s
  | .headUnloadExpiry d => Sys2Proof.Machine.execHeadUnloadExpiry d s
  | .unloadTouchEnd c => Sys2Proof.Machine.execUnloadTouchEnd c s
  | .surveyWaitExpiry => Sys2Proof.Machine.execSurveyWaitExpiry s
  | .roundTick => Sys2Proof.Machine.execRoundTick s
  | .editionCount => Sys2Proof.Machine.execEditionCount s
  | .claim c => Sys2Proof.Machine.execClaim c s
  | .stepTimeEnd c trk0 => Sys2Proof.Machine.execStepTimeEnd c trk0 s
  | .settleEnd c => Sys2Proof.Machine.execSettleEnd c s
  | .headLoadEnd c => Sys2Proof.Machine.execHeadLoadEnd c s
  | .idFieldRead c field => Sys2Proof.Machine.execIdFieldRead c field s
  | .dataFieldRead c field => Sys2Proof.Machine.execDataFieldRead c field s
  | .dataFieldWritten c => Sys2Proof.Machine.execDataFieldWritten c s
  | .passAcross c => Sys2Proof.Machine.execPassAcross c s
  | .searchTimeout c sector => Sys2Proof.Machine.execSearchTimeout c sector s
  | .indexPulse c elapsed => Sys2Proof.Machine.execIndexPulse c elapsed s
  | .noIndexTimeout c => Sys2Proof.Machine.execNoIndexTimeout c s
  | .readySample d lines => Sys2Proof.Machine.execReadySample d lines s
  | .surveyStepTimeout c => Sys2Proof.Machine.execSurveyStepTimeout c s
  | .nominalFinalFillEnd c => Sys2Proof.Machine.execNominalFinalFillEnd c s

end Sys2Proof.Machine
end

