-- ==== Sys2Proof/Machine/Step.lean ====
section
/-! DEFINITION. One step: the command at the front of the queue. -/

namespace Sys2Proof.Machine

/-- One step takes the command at the front of the queue and runs it with the queue's rest; on an empty
queue the block idles (log 3). -/
def step (s : State) : Host.Outcome State Fault Refusal :=
  match s.pending with
  | [] => .next s
  | c :: rest => exec c { s with pending := rest }

end Sys2Proof.Machine

/-- The state with the command that a word spells at the front of its queue; unchanged where the word
spells none (log 30). -/
def Sys2Proof.Machine.State.withFetchWord (s : Sys2Proof.Machine.State) (nbits w : Nat) :
    Sys2Proof.Machine.State :=
  match Sys2Proof.decodeTableWord nbits w with
  | some c => { s with pending := c :: s.pending }
  | none => s
end

