-- ==== Sys2Proof/Safety.lean ====
section
/-! DEFINITION. What the claims speak of: the invariants of the part, what one operation of the engine
leaves as it is, and when nothing is waiting to begin. -/

namespace Sys2Proof.Machine

/-! ### Bounds of the front (R92, R93, R46, R139, R168) -/

/-- The values the front may take: at most 8 actions wait (R168); the remaining time is at most 5999 and
the rush window at most 900 (R92); in IDLE nothing remains (R94); the overdue limit is at most 255 and the
retry limit at most 7 (R46, R139); a controller in RUN or DRAINING has no START under way. -/
structure Front.Bounded (x : Front) : Prop where
  actions : x.actionQ.length ≤ Config.actionCapacity
  remaining : x.clock.remaining ≤ Config.maxRemaining
  window : x.clock.window ≤ Config.maxRushWindow
  idle : x.clock.phase = .idle → x.clock.remaining = 0
  overdue : x.tables.overdue ≤ 255
  retry : x.tables.retry ≤ 7
  started : x.active = true → x.starting = .off

/-! ### The held-order list (R4) -/

/-- At most one held order for each of the 32 slots, and none for the slot whose POST is in hand (R4,
R10). -/
structure State.HeldOnce (s : State) : Prop where
  once : (s.engine.held.map Order.slot).Nodup
  slots : ∀ o ∈ s.engine.held, o.slot < 32
  reading : ∀ w, s.front.intake = .reading w →
    actionOperand w < 32 ∧ ∀ o ∈ s.engine.held, o.slot ≠ actionOperand w

/-! ### The split log (R59) -/

/-- No two entries for the same sector (R59). -/
def LogOnce (log : List LogEntry) : Prop := log.Pairwise fun a b => a.sameSector b = false

/-- A DETACHED pair holds no entries (R58). -/
def LogClear (pairs : ByPair PairRecord) (log : List LogEntry) : Prop :=
  ∀ l ∈ log, (pairs.get l.pair).mode ≠ .detached

/-! ### Log room (R36, R59, R63) -/

/-- The law of R59 with the reservations of R63: used and reserved entries are never more than 32; the
reserved total is the sum of the orders' reservations; only an order granted and not yet finished holds one,
and no MEND does; a mirrored order that writes or checks holds one for every sector not yet resolved. In
CONFIG and STARTING no order is held. -/
structure State.RoomKept (s : State) : Prop where
  room : s.engine.log.length + s.engine.reserved ≤ 32
  total : s.engine.reserved = (s.engine.held.map Order.reservation).sum
  granted : ∀ o ∈ s.engine.held, o.reservation ≠ 0 →
    o.finish = none ∧ (o.state = .running ∨ o.state = .boundWait) ∧ o.kind ≠ .mend
  unresolved : ∀ o ∈ s.engine.held, o.finish = none → o.mirrored = true →
    o.kind.writes = true ∨ o.kind = .check → o.resolved.count false ≤ o.reservation
  idle : s.front.ctl = .config ∨ s.front.ctl = .starting → s.engine.held = []

/-! ### Held counts (R6) -/

/-- The held count of each of the eight desks, and of each drive, is the number of held orders of that desk,
and of those that cover that drive. In CONFIG and STARTING no order is held. -/
structure State.Counted (s : State) : Prop where
  length : s.engine.deskHeld.length = 8
  desks : ∀ k < 8, s.engine.deskHeld.getD k 0 = s.engine.held.countP fun o => o.fields.desk == k
  drives : ∀ d, (s.engine.drive d).heldCount = s.engine.held.countP fun o => o.covers d
  idle : s.front.ctl = .config ∨ s.front.ctl = .starting → s.engine.held = []

/-! ### Write gates (R105, R118, R134 to R136) -/

/-- The channel is writing a data field or a track. -/
def Act.writing? : Act → Bool
  | .writing _ _ => true
  | .formatting _ => true
  | .none => false
  | .selecting => false
  | .stepping _ => false
  | .settling => false
  | .loading => false
  | .confirming _ => false
  | .holding => false
  | .seeking => false
  | .reading _ _ _ _ => false
  | .awaitIndex => false
  | .surveying _ _ => false
  | .ending => false

/-- A write gate is up only in RUN or DRAINING, on a channel in a pass that writes a field or a track, for a
running order that writes on this side, with the order's drive selected, READY and not write protected. -/
def State.GatesProper (s : State) : Prop :=
  ∀ c, (s.engine.chan c).writeGate = true →
    s.front.active = true ∧ (s.engine.chan c).inPass = true ∧ (s.engine.chan c).act.writing? = true ∧
    ∃ o, s.engine.orderOf? c = some o ∧ o.state = .running ∧ o.finish = none ∧ o.writesOn c = true ∧
      (s.engine.chan c).selected = some o.pair ∧ (s.engine.drive ⟨c, o.pair⟩).state = .ready ∧
      (s.engine.drive ⟨c, o.pair⟩).writeProtected = false

/-! ### Aux outputs (R147 to R149) -/

/-- In RUN and DRAINING a door lock is active exactly when an order is held for its drive or its mount hold
is set (R148); an in-use lamp is active exactly when the record shows the head loaded (R149). -/
def State.OutputsFollow (s : State) : Prop :=
  s.front.active = true → ∀ d,
    ((s.front.record d).aux = .doorLock →
      ((s.engine.drive d).latch = true ↔
        0 < (s.engine.drive d).heldCount ∨ (s.engine.drive d).mountHold = true)) ∧
    ((s.front.record d).aux = .inUseLamp →
      (s.engine.drive d).latch = (s.engine.drive d).loaded)

/-! ### What an operation of the engine leaves as it is -/

/-- The part of an order's record that never changes: its slot and the fields copied from it (R3, R5). -/
def Order.key (o : Order) : Nat × OrderFields := (o.slot, o.fields)

/-- The engine goes on from `e` to `e'` without an order joining or leaving the list: the same orders are
held with the same fields, perhaps in another order; the split log keeps one entry a sector, and none
of a DETACHED pair; the desks' held counts and the open closes are as they were; and what has been asked of
the memory port stays asked, later requests behind it (R4, R5, R58, R59, R171). -/
structure Engine.Keeps (e e' : Engine) : Prop where
  held : (e'.held.map Order.key).Perm (e.held.map Order.key)
  log : LogOnce e.log → LogOnce e'.log
  clear : LogClear e.pairs e.log → LogClear e'.pairs e'.log
  desks : e'.deskHeld = e.deskHeld
  closes : e'.closes = e.closes
  queue : e.port.queue <+: e'.port.queue
  notices : e'.port.notices = e.port.notices
  inProgress : e'.port.inProgress = e.port.inProgress
  lastWord : e'.port.lastWord = e.port.lastWord

/-! ### What a reset leaves (R173) -/

/-- `t` holds the values that both resets leave, after a reset taken in `s`: everything at its reset value,
AREA BASE and the reset line apart; the channels' buffers keep their bytes, the pins their levels, and
memory is as it was where no bus cycle was in progress. -/
structure State.ClearedTo (s t : State) : Prop where
  ctl : t.front.ctl = .config
  starting : t.front.starting = .off
  tables : t.front.tables = Tables.cleared
  actionQ : t.front.actionQ = []
  intake : t.front.intake = .free
  done : t.front.done = 0
  notify : t.front.notify = 0
  enable : t.front.enable = 0
  round : t.front.round = 0
  clock : t.front.clock = { remaining := 0, running := false, phase := .idle, window := 0 }
  faultActive : t.front.faultActive = false
  pins : t.front.pins = s.front.pins
  attention : t.engine.attention = 0
  held : t.engine.held = []
  deskHeld : t.engine.deskHeld = List.replicate 8 0
  closes : t.engine.closes = []
  pairs : ∀ p, t.engine.pairs.get p = { bound := false, mode := .attached, kept := .A, lost := 0 }
  log : t.engine.log = []
  reserved : t.engine.reserved = 0
  queue : t.engine.port.queue = []
  notices : t.engine.port.notices = []
  inProgress : t.engine.port.inProgress = none
  channels : ∀ c, t.engine.chan c = Channel.resetWith (s.engine.chan c).buffers
  timers : ∀ d, t.engine.timers.drive d = .stopped
  drives : ∀ d, t.engine.drive d = Knowledge.reset
  survey : t.engine.survey = Survey.reset
  pending : t.pending = s.pending
  mem : s.engine.port.inProgress = none → t.mem = s.mem

/-! ### When nothing begins -/

/-- No channel is free: each is at work, bound, or about to begin (R31). -/
def Engine.noneFree (e : Engine) : Bool := !(e.chan .A).free && !(e.chan .B).free

/-! ### Safe runs -/

/-- What holds of every state a run passes through. -/
structure State.Safe (s : State) : Prop where
  memory : memWf s.mem = true
  front : s.front.Bounded
  held : s.HeldOnce
  log : LogOnce s.engine.log
  clear : LogClear s.engine.pairs s.engine.log
  room : s.RoomKept
  counted : s.Counted
  gates : s.GatesProper
  outputs : s.OutputsFollow

end Sys2Proof.Machine
end

