-- ==== Sys2Proof/Certificates/Slice0/Obligations.lean ====
section
/-! DEFINITION. The statements for the provers. -/

open Sys2Proof Sys2Proof.Machine

/-! ### Whole-machine statements -/

/-- O1 (R30, R56, R62, R63, R80, R92, R103, R115, R143, R155, R173): what a reset leaves, in the values
the spec gives. -/
def Obligations.ResetLeavesTheSpecifiedValues : Prop :=
  let s := State.reset
  let e := s.engine
  s.front.ctl = .config ∧ s.front.areaBase = 0 ∧ s.front.actionQ = [] ∧ s.front.intake = .free ∧
  s.front.done = 0 ∧ s.front.notify = 0 ∧ e.attention = 0 ∧ s.front.enable = 0 ∧ s.interrupt = false ∧
  s.front.round = 0 ∧
  s.front.clock = { remaining := 0, running := false, phase := .idle, window := 0 } ∧
  e.held = [] ∧ e.deskHeld = List.replicate 8 0 ∧
  (∀ p, e.pairs.get p = { bound := false, mode := .attached, kept := .A, lost := 0 }) ∧
  e.log = [] ∧ e.reserved = 0 ∧
  (∀ c, (e.chan c).state = .stopped ∧ (e.chan c).selected = none ∧ (e.chan c).lastSelected = none ∧
    (e.chan c).order = none ∧ (e.chan c).headLoad = false ∧ (e.chan c).writeGate = false) ∧
  (∀ d, e.timers.drive d = .stopped) ∧
  (∀ d, (e.drive d).state = .unknown ∧ (e.drive d).cylinder = none ∧ (e.drive d).generation = 0 ∧
    (e.drive d).loaded = false ∧ (e.drive d).mountHold = false ∧ (e.drive d).heldCount = 0 ∧
    (e.drive d).period = 0 ∧ (e.drive d).lastVolume = 0 ∧ (e.drive d).surveyRound = none ∧
    (e.drive d).latch = false) ∧
  e.survey.mode = .off ∧ e.survey.mask = BySide.allDrives false ∧ e.survey.request = none ∧
  e.survey.next = none ∧ e.survey.step = none ∧
  e.port.queue = [] ∧ e.port.inProgress = none

/-- O2: a step is `exec` of the command at the front of the queue, on the state with the queue's rest. -/
def Obligations.StepRunsTheCommandAtTheFront : Prop :=
  ∀ (c : Instr) (rest : List Instr) (s : State),
    step { s with pending := c :: rest } = exec c { s with pending := rest }

/-- O3 (R161, R162; log 2): every command is answered with a next state, and leaves the queue of commands
as it is. R161 and R162 say of the host's commands where they have no effect; that every other command, in
a state that gives it none, is answered with a next state as well is the model's choice (log 2). This is
no statement of completion: it gives no effect. -/
def Obligations.EveryCommandIsAnswered : Prop :=
  ∀ (c : Instr) (s : State), ∃ t, exec c s = .next t ∧ t.pending = s.pending

/-- O4: the memory keeps its canonical form (log 1). -/
def Obligations.MemoryStaysCanonical : Prop :=
  ∀ s t : State, memWf s.mem = true → step s = .next t → memWf t.mem = true

/-- O5 (R46, R92, R94, R139, R168): the values of the front keep their bounds. -/
def Obligations.FrontKeepsItsBounds : Prop :=
  ∀ s t : State, s.front.Bounded → step s = .next t → t.front.Bounded

/-- O6 (R4, R10): each slot is held at most once, and only slots 0 to 31 are held. -/
def Obligations.EachSlotIsHeldOnce : Prop :=
  ∀ s t : State, s.HeldOnce → step s = .next t → t.HeldOnce

/-- O7 (R16, R58, R59, R73, R74): the split log never comes to hold two entries for one sector, and a
DETACHED pair never comes to hold entries in it. -/
def Obligations.SplitLogKeepsItsForm : Prop :=
  ∀ s t : State, step s = .next t →
    (LogOnce s.engine.log → LogOnce t.engine.log) ∧
    (LogClear s.engine.pairs s.engine.log → LogClear t.engine.pairs t.engine.log)

/-- O8 (R36, R49, R50, R59, R63): the split log never outgrows its room: used and reserved entries are
never more than 32, the reserved total is the sum of what the orders hold, and a granted mirrored order
that writes or checks holds an entry for every sector not yet resolved. -/
def Obligations.LogRoomIsKept : Prop :=
  ∀ s t : State, s.HeldOnce → s.RoomKept → step s = .next t → t.RoomKept

/-- O9 (R6, R18, R24): the held count of each desk and of each drive is the number of held orders that
count for it. -/
def Obligations.HeldCountsFollowTheOrders : Prop :=
  ∀ s t : State, s.HeldOnce → s.Counted → step s = .next t → t.Counted

/-- O10 (R105, R118, R127, R134, R135): a write gate is up only on a channel that writes a field or a
track for a running order that writes on its side, the order's drive selected, READY and not write
protected. -/
def Obligations.WriteGatesStayProper : Prop :=
  ∀ s t : State, s.HeldOnce → s.GatesProper → step s = .next t → t.GatesProper

/-- O11 (R147, R148, R149): in RUN and DRAINING a door lock is active exactly with a held order or a mount
hold of its drive, and an in-use lamp exactly while the record shows the head loaded. -/
def Obligations.AuxOutputsFollowTheirCauses : Prop :=
  ∀ s t : State, s.OutputsFollow → step s = .next t → t.OutputsFollow

/-- O12: the invariants that the steps keep hold after a reset. -/
def Obligations.ResetStateIsSafe : Prop := State.reset.Safe

/-- O13 (R3, R4, R24): an order leaves the held list by a DONE_BIT_SET of its own slot or by a reset
alone, its fields unchanged till then: no command but these removes an order, and a DONE_BIT_SET removes
no order but one whose finish has been decided and whose own finish is the one it reports. -/
def Obligations.OrdersLeaveByTheirDoneBit : Prop :=
  ∀ (c : Instr) (s t : State), exec c s = .next t →
    (∀ moved, c ≠ .reset moved) → (∀ moved, c ≠ .resetLine moved) →
    let stays (o : Order) : Prop := ∃ o' ∈ t.engine.held, o'.slot = o.slot ∧ o'.fields = o.fields
    (c ≠ .doneBitSet → ∀ o ∈ s.engine.held, stays o) ∧
    (c = .doneBitSet → (s.engine.held.map Order.slot).Nodup → ∀ o ∈ s.engine.held,
      stays o ∨
      (o.finish ≠ none ∧ ∃ notify late s1,
        s.await Notice.isDoneBit = some (.doneBit o.slot notify .leaves late, s1)))

/-- O14 (R94): IDLE, with the front's values inside their bounds, is left only by a preset that is
applied, or entered by a reset; CLOSED is left only by a preset above 0, or by a reset. -/
def Obligations.PhasesAreLeftByALoad : Prop :=
  ∀ (c : Instr) (s t : State), exec c s = .next t →
    (∀ moved, c ≠ .reset moved) → (∀ moved, c ≠ .resetLine moved) →
    (s.front.Bounded → s.front.clock.phase = .idle → (∀ w, c ≠ .presetReadComplete w) → t.front.clock.phase = .idle) ∧
    (s.front.clock.phase ≠ .idle → t.front.clock.phase ≠ .idle) ∧
    (s.front.clock.phase = .closed → s.front.clock.remaining = 0 →
      (∀ w, c = .presetReadComplete w → w = 0) → t.front.clock.phase = .closed)

/-! ### The host's commands and register writes -/

/-- O15 (R56, R57, R62, R80, R93, R119, R124, R161, R163, R164, R165; log 22): START in CONFIG enters
STARTING. It waits until both channels are STOPPED; then a base above 0xFF9 fails at once with BAD_BASE
and the base value, and otherwise the reads of the configuration block, the desk records and the drive
records are issued. Then what START makes of what it has read: the tables come first: a failed check of
theirs ends START; where they pass, as many image entries are asked for as the length says, a length above
32 failing as item 32, and a length of 0 needing no read. The image entries follow, and a failed check of
theirs ends START. A START that ends so is in CONFIG with nothing loaded, and issues one header write with
the state, the error code and the item, after which CONFIG_ERROR is set. Where every check passes the
controller enters RUN with the tables, the window, the enable mask, the pair records and the log taken,
the round 0 and both channels IDLE; one header write, the eight desk counts and the four status records
are issued, in that order; then the channels settle. That the reads of the tables are issued together, and
told of by one completion, is the model's choice (log 22). -/
def Obligations.StartBeginsAndIsJudged : Prop :=
  (∀ s : State, s.front.resetLine = false → s.front.ctl = .config →
    (¬((s.engine.chan .A).state = .stopped ∧ (s.engine.chan .B).state = .stopped) →
      exec .start s = .next { s with front := { s.front with ctl := .starting, starting := .waiting } }) ∧
    ((s.engine.chan .A).state = .stopped → (s.engine.chan .B).state = .stopped →
      let base := s.front.areaBase.toNat * 256
      let reads (offset n : Nat) : List Access :=
        (List.range n).map fun k => { addr := base + (offset + 2 * k), data := none }
      (s.front.areaBase.toNat ≤ 0xFF9 →
        exec .start s = .next
          { s with
            front := { s.front with ctl := .starting, starting := .reading },
            engine := { s.engine with port := { s.engine.port with
              queue := s.engine.port.queue ++
                [{ kind := .areaRead, words := reads 0x040 32, notice := none },
                 { kind := .areaRead, words := reads 0x080 32, notice := none },
                 { kind := .areaRead, words := reads 0x0C0 32, notice := some .startRead }] } } }) ∧
      (0xFF9 < s.front.areaBase.toNat →
        exec .start s = .next
          { s with
            front := { s.front with ctl := .config, starting := .off },
            engine := { s.engine with port := { s.engine.port with
              queue := s.engine.port.queue ++
                [{ kind := .headerWrite,
                   words := [{ addr := base, data := some 0 }, { addr := base + 8, data := some 1 },
                     { addr := base + 10, data := some (s.front.areaBase.setWidth 16) }],
                   notice := some .configError }] } } }))) ∧
  ∀ (s s1 : State) (n : Notice) (area : AreaData),
    s.front.ctl = .starting → s.await (fun n => n == .startRead) = some (n, s1) →
    let base := s1.front.areaBase.toNat * 256
    let failed (code : ConfigErrorCode) (item : Nat) : State :=
      { s1 with
        front := { s1.front with ctl := .config, starting := .off },
        engine := { s1.engine with port := { s1.engine.port with
          queue := s1.engine.port.queue ++
            [{ kind := .headerWrite,
               words := [{ addr := base, data := some 0 },
                 { addr := base + 8, data := some (BitVec.ofNat 16 code.code) },
                 { addr := base + 10, data := some (BitVec.ofNat 16 item) }],
               notice := some .configError }] } } }
    let entered (k : Commit) (t : State) : Prop := ∃ e : Engine,
      t = State.settle
        { s1 with
          front := { s1.front with
            ctl := .run, starting := .off, tables := k.tables, enable := k.enable, round := 0,
            clock := { s1.front.clock with
              window := k.window,
              phase := if s1.front.clock.phase = .far ∨ s1.front.clock.phase = .near then
                  (if k.window < s1.front.clock.remaining then .far
                   else if 1 ≤ s1.front.clock.remaining then .near else .closed)
                else s1.front.clock.phase } },
          engine := e } ∧
      e.pairs = k.pairs ∧ e.log = k.log ∧ e.reserved = 0 ∧ e.deskHeld = List.replicate 8 0 ∧
      e.held = s1.engine.held ∧ e.attention = s1.engine.attention ∧ e.timers = s1.engine.timers ∧
      e.survey = s1.engine.survey ∧
      (∀ c, e.chan c = { s1.engine.chan c with state := .idle }) ∧
      (∀ d, (k.tables.drives.drive d).present = false → (e.drive d).state = .unconfigured) ∧
      (∀ d, (e.drive d).generation = (s1.engine.drive d).generation) ∧
      ∃ header desks statuses, e.port.queue = s1.engine.port.queue ++ header :: (desks ++ statuses) ∧
        header.kind = .headerWrite ∧ header.words.length = 15 ∧
        header.words.head? = some { addr := base, data := some 2 } ∧
        desks.map Request.kind = List.replicate 8 .deskWrite ∧
        desks.map Request.words = (List.range 8).map (fun d =>
          [{ addr := base + (0x080 + 8 * d + 6), data := some 0 }]) ∧
        statuses.map Request.kind = List.replicate 4 .statusWrite
    (s.front.starting = .reading →
      (∀ code item, checkTables s1.engine.pairs area = .error (code, item) →
        exec (.startReadComplete (.tables area)) s = .next (failed code item)) ∧
      ∀ read, checkTables s1.engine.pairs area = .ok read →
        (1 ≤ imageLength area → imageLength area ≤ 32 →
          exec (.startReadComplete (.tables area)) s = .next
            { s1 with
              front := { s1.front with starting := .imaging area },
              engine := s1.engine.issue .areaRead
                ((List.range (4 * imageLength area)).map fun k =>
                  { addr := base + (0x140 + 2 * k), data := none })
                (some .startRead) }) ∧
        (32 < imageLength area →
          exec (.startReadComplete (.tables area)) s = .next (failed .splitImage 32)) ∧
        (imageLength area = 0 → ∃ k t, checkArea s1.engine.pairs area [] = .ok k ∧ k.log = [] ∧
          exec (.startReadComplete (.tables area)) s = .next t ∧ entered k t)) ∧
    (s.front.starting = .imaging area → ∀ words,
      (∀ code item, checkArea s1.engine.pairs area words = .error (code, item) →
        exec (.startReadComplete (.image words)) s = .next (failed code item)) ∧
      ∀ k, checkArea s1.engine.pairs area words = .ok k → ∃ t,
        exec (.startReadComplete (.image words)) s = .next t ∧ entered k t)

/-- O16 (R23, R46, R57, R62, R93, R106, R124, R139, R163, R164; log 26): what START's checks refuse and
take. A present drive record with a field outside its list fails DRIVE_GEOMETRY, one whose track does not
fit TRACK_OVERFULL; a record not present is not checked; the first drive that fails is named. Then pair 0
and pair 1: a bound pair with a mode, kept side or lost count out of range fails PAIR_RECORD; one with a
drive not present, or two that differ in geometry, PAIR_MISMATCH; that the kept side of an ATTACHED pair
is A for every code but B's is the model's choice (log 26). Then the image: a length above 32 fails as
item 32, and else the first position whose entry is not of a bound, ATTACHED pair, or outside its
geometry, or without a side, an origin or an origin kind of the list, or of the same sector as an earlier
one. The timing fields, limits and window are clamped, desks taken with a limit of 1 to 32. -/
def Obligations.StartChecksWhatItReads : Prop :=
  let field (w : Word) (lo n : Nat) : Nat := w.toNat / 2 ^ lo % 2 ^ n
  (∀ ws : List Word,
    let w0 := ws.getD 0 0
    let w1 := ws.getD 1 0
    let w2 := ws.getD 2 0
    let size := 128 * 2 ^ field w0 8 3
    let inLists : Prop := field w0 4 2 ≤ 1 ∧ 1 ≤ field w1 0 8 ∧ field w1 0 8 ≤ 2 ∧ 1 ≤ field w1 8 8 ∧
      field w1 8 8 ≤ 80 ∧ 1 ≤ field w2 0 8 ∧ field w2 0 8 ≤ 32 ∧ field w0 8 3 ≤ 3 ∧ field w0 12 2 ≤ 1 ∧
      field w2 8 3 ≤ 4 ∧ field w2 12 3 ≤ 3
    let fits : Prop :=
      if field w0 4 2 = 1 then 160 + field w2 0 8 * (size + 92) ≤ 10400
      else 80 + field w2 0 8 * (size + 46) ≤ 5200
    (w0.getLsbD 0 = false → ∃ r, driveRecordOf ws = .ok r ∧ r.present = false) ∧
    (w0.getLsbD 0 = true →
      (¬inLists → driveRecordOf ws = .error .driveGeometry) ∧
      (inLists → ¬fits → driveRecordOf ws = .error .trackOverfull) ∧
      (inLists → fits → ∃ aux edge,
        [AuxFunction.none, .doorLock, .inUseLamp, .twoSidedSense, .changeSense][field w2 8 3]? = some aux ∧
        [EdgeMode.none, .toReady, .toNotReady, .both][field w2 12 3]? = some edge ∧
        driveRecordOf ws = .ok
          { present := true, debounce := w0.getLsbD 1, mfm := decide (field w0 4 2 = 1),
            sizeCode := field w0 8 3, firstSector := field w0 12 2, surfaces := field w1 0 8,
            cylinders := field w1 8 8, sectors := field w2 0 8, aux := aux, edge := edge,
            step := min 16 (max 1 (field (ws.getD 3 0) 0 8)), settle := min 30 (field (ws.getD 3 0) 8 8),
            load := min 60 (field (ws.getD 4 0) 0 8), unload := field (ws.getD 4 0) 8 8 }))) ∧
  (∀ (old : ByPair PairRecord) (a : AreaData),
    let record (d : Drive) := driveRecordOf (a.drives.drop (8 * d.number))
    (∀ d code, record d = .error code → (∀ d', d'.number < d.number → ∃ r, record d' = .ok r) →
      checkTables old a = .error (code, d.number)) ∧
    ∀ drives : ByDrive DriveRecord, (∀ d, record d = .ok (drives.drive d)) →
      let w (p : PairId) : Word := a.config.getD (5 + 2 * p.number) 0
      let bound (p : PairId) : Bool := (a.config.getD (4 + 2 * p.number) 0).getLsbD 0
      let badRecord (p : PairId) : Prop := 1 < field (w p) 0 2 ∨
        (field (w p) 0 2 = 1 ∧ 1 < field (w p) 4 2) ∨ 32 < field (w p) 8 8
      let differ (ra rb : DriveRecord) : Prop := ra.present = false ∨ rb.present = false ∨ ra.mfm ≠ rb.mfm ∨
        ra.surfaces ≠ rb.surfaces ∨ ra.cylinders ≠ rb.cylinders ∨ ra.sectors ≠ rb.sectors ∨
        ra.sizeCode ≠ rb.sizeCode ∨ ra.firstSector ≠ rb.firstSector
      let mismatch (p : PairId) : Prop := differ (drives.drive ⟨.A, p⟩) (drives.drive ⟨.B, p⟩)
      let passes (p : PairId) : Prop := bound p = true → ¬badRecord p ∧ ¬mismatch p
      let fails (p : PairId) (code : ConfigErrorCode) : Prop := bound p = true ∧
        ((badRecord p ∧ code = .pairRecord) ∨ (¬badRecord p ∧ mismatch p ∧ code = .pairMismatch))
      (∀ code, fails .p0 code → checkTables old a = .error (code, 0)) ∧
      (∀ code, passes .p0 → fails .p1 code → checkTables old a = .error (code, 1)) ∧
      (passes .p0 → passes .p1 → ∃ pairs, checkTables old a = .ok (drives, pairs) ∧
        ∀ p, (pairs.get p).bound = bound p ∧
          (bound p = true → pairs.get p =
            { bound := true, mode := if field (w p) 0 2 = 1 then .detached else .attached,
              kept := if field (w p) 4 2 = 1 then .B else .A, lost := field (w p) 8 8 }))) ∧
  (∀ (pairs : ByPair PairRecord) (drives : ByDrive DriveRecord) (ws : List Word) (length : Nat),
    let word (i k : Nat) : Word := ws.getD (4 * i + k) 0
    let reads (i : Nat) (l : LogEntry) : Prop :=
      let r := drives.drive ⟨.A, l.pair⟩
      field (word i 0) 0 8 = l.pair.number ∧ field (word i 0) 8 8 = (if l.good = .A then 0 else 1) ∧
      field (word i 1) 0 8 = l.place.cylinder ∧ field (word i 1) 8 8 = l.place.surface ∧
      field (word i 2) 0 8 = l.place.sector ∧ field (word i 2) 8 8 = l.origin ∧
      field (word i 3) 0 8 = l.originKind.code ∧
      (l.originKind = .write ∨ l.originKind = .check ∨ l.originKind = .format ∨ l.originKind = .retire) ∧
      (pairs.get l.pair).bound = true ∧ (pairs.get l.pair).mode = .attached ∧
      l.place.cylinder < r.cylinders ∧ l.place.surface < r.surfaces ∧ r.firstSector ≤ l.place.sector ∧
      l.place.sector < r.firstSector + r.sectors ∧ l.origin ≤ 31
    let takes (n : Nat) (log : List LogEntry) : Prop := log.length = n ∧
      (∀ (i : Nat) (l : LogEntry), log[i]? = some l → reads i l) ∧
      ∀ (i j : Nat) (l m : LogEntry), i < j → log[i]? = some l → log[j]? = some m → l.pair = m.pair → l.place ≠ m.place
    (32 < length → imageOf pairs drives length ws = .error (.splitImage, 32)) ∧
    (length ≤ 32 →
      (∀ log, takes length log → imageOf pairs drives length ws = .ok log) ∧
      ∀ i log, i < length → takes i log → (∀ log', ¬takes (i + 1) log') →
        imageOf pairs drives length ws = .error (.splitImage, i))) ∧
  ∀ (old : ByPair PairRecord) (a : AreaData) (image : List Word) (drives : ByDrive DriveRecord)
    (pairs : ByPair PairRecord) (log : List LogEntry), checkTables old a = .ok (drives, pairs) →
    (∀ code item, imageOf pairs drives (a.config.getD 8 0).toNat image = .error (code, item) →
      checkArea old a image = .error (code, item)) ∧
    (imageOf pairs drives (a.config.getD 8 0).toNat image = .ok log →
      checkArea old a image = .ok
        { tables :=
            { desks := (List.range 8).map fun d =>
                { enabled := (a.desks.getD (4 * d) 0).getLsbD 0, cls := field (a.desks.getD (4 * d + 1) 0) 0 2,
                  limit := min 32 (max 1 (a.desks.getD (4 * d + 2) 0).toNat) },
              drives := drives, overdue := min 255 (max 16 (a.config.getD 0 0).toNat),
              retry := min 7 (a.config.getD 2 0).toNat },
          window := min 900 (a.config.getD 1 0).toNat, enable := (a.config.getD 3 0).setWidth 8,
          pairs := pairs, log := log })

/-- O17 (R28, R115, R159, R161; log 57): STOP in RUN ends the survey and finishes every waiting order
STOPPED; the orders that run go on, as does a survey step in hand, one that its channel has taken during
an unload touch and not begun included, which is the model's choice (log 57). The controller is DRAINING.
It is in CONFIG at once exactly where no order is held, both channels are IDLE with no unload touch in
progress or pending and nothing given to them, and no finish is still to be written. -/
def Obligations.StopFinishesTheWaitingOrders : Prop :=
  ∀ s : State, s.HeldOnce → s.front.resetLine = false → s.front.ctl = .run →
    ∃ t, exec .stop s = .next t ∧ (t.front.ctl = .draining ∨ t.front.ctl = .config) ∧
      (t.front.ctl = .config ↔ s.engine.held = [] ∧
        (∀ c, (s.engine.chan c).state = .idle ∧ (s.engine.chan c).order = none ∧
          (s.engine.chan c).touch = none ∧ (s.engine.chan c).deferred = none ∧
          ∀ p, s.engine.timers.drive ⟨c, p⟩ ≠ .pending) ∧
        ∀ slot notify how late, Notice.doneBit slot notify how late ∉ s.engine.port.notices ∧
          ∀ r ∈ s.engine.port.queue, r.notice ≠ some (.doneBit slot notify how late)) ∧
      t.engine.survey.mode = .off ∧ t.engine.survey.mask = BySide.allDrives false ∧
      t.engine.survey.request = none ∧ t.engine.survey.next = none ∧
      t.engine.survey.step = none ∧
      (∀ d, s.engine.survey.step = some d →
        t.engine.survey.orphans = s.engine.survey.orphans.set d.side (some d)) ∧
      (s.engine.survey.step = none → t.engine.survey.orphans = s.engine.survey.orphans) ∧
      t.front.done = s.front.done ∧ t.front.intake = s.front.intake ∧ t.mem = s.mem ∧
      t.engine.log = s.engine.log ∧ t.engine.deskHeld = s.engine.deskHeld ∧
      ∀ o ∈ s.engine.held,
        (o.finish = none → o.state ≠ .running →
          ∃ o' ∈ t.engine.held, o'.slot = o.slot ∧ o'.finish = some .stopped) ∧
        (o.state = .running → o.finish = none → o ∈ t.engine.held)

/-- O18 (R29): ABORT_ALL in RUN or DRAINING empties the action queue, finishes every waiting order ABORTED
and puts the mark ABORTED on every running one. -/
def Obligations.AbortAllEndsEveryOrder : Prop :=
  ∀ s : State, s.HeldOnce → s.front.resetLine = false → (s.front.ctl = .run ∨ s.front.ctl = .draining) →
    ∃ t, exec .abortAll s = .next t ∧ t.front.actionQ = [] ∧ t.front.done = s.front.done ∧
      t.front.intake = s.front.intake ∧ t.mem = s.mem ∧
      ∀ o ∈ s.engine.held, o.finish = none →
        ∃ o' ∈ t.engine.held, o'.slot = o.slot ∧
          (o.state ≠ .running → o'.finish = some .aborted) ∧
          (o.state = .running → o'.withdrawMark = some .aborted ∧
            (o'.finish = none ∨ o'.finish = some .aborted))

/-- O19 (R30, R56, R80, R92, R103, R115, R143, R155, R169, R173; log 10, log 11, log 20, log 38): what
RESET, RESET_LINE and RESET_LINE_RELEASE leave. With no bus cycle in progress memory is as it was. Of the
values held after a reset the model's choices are the levels kept on the pins (log 10), the buffers' bytes
and the buffer that counts as last used (log 11), DIR and SSEL inactive (log 20) and the values of the
cleared tables (log 38). -/
def Obligations.ResetsReturnToTheResetValues : Prop :=
  ∀ (s : State) (moved : Nat),
    (∃ t, exec (.resetLine moved) s = .next t ∧ t.front.areaBase = 0 ∧ t.front.resetLine = true ∧
      s.ClearedTo t) ∧
    (s.front.resetLine = false → ∃ t, exec (.reset moved) s = .next t ∧
      t.front.areaBase = s.front.areaBase ∧ t.front.resetLine = false ∧ s.ClearedTo t) ∧
    exec .resetLineRelease s = .next { s with front := { s.front with resetLine := false } }

/-- O20 (R94, R95, R96): CLOCK_LOAD, CLOCK_RUN and CLOCK_HALT where they are taken: the read of the
preset, or the running flag and the write of the edition fields. When the preset read completes the
remaining time is the preset, at most 5999, the phase is worked out, and the edition fields are written;
the running flag is as it was. -/
def Obligations.ClockCommandsAreTaken : Prop :=
  ∀ s : State,
    (s.front.resetLine = false → (s.front.ctl = .run ∨ s.front.ctl = .draining) →
      let base := s.front.areaBase.toNat * 256
      let fields (running : Nat) : List Access :=
        [{ addr := base + 0x12, data := some (BitVec.ofNat 16 s.front.clock.remaining) },
         { addr := base + 0x14, data := some (lohi s.front.clock.phase.code running) }]
      exec .clockLoad s = .next { s with
        engine := s.engine.issue .presetRead [{ addr := base + 0x16, data := none }] (some .presetRead) } ∧
      exec .clockRun s = .next { s with
        front := { s.front with clock := { s.front.clock with running := true } },
        engine := s.engine.issue .headerWrite (fields 1) none } ∧
      exec .clockHalt s = .next { s with
        front := { s.front with clock := { s.front.clock with running := false } },
        engine := s.engine.issue .headerWrite (fields 0) none }) ∧
    ∀ (s1 : State) (n : Notice) (preset : Word), s.await (fun n => n == .presetRead) = some (n, s1) →
      let remaining := min 5999 preset.toNat
      let phase : Phase := if s1.front.clock.window < remaining then .far
        else if 1 ≤ remaining then .near else .closed
      let base := s1.front.areaBase.toNat * 256
      let fields : List Access :=
        [{ addr := base + 0x12, data := some (BitVec.ofNat 16 remaining) },
         { addr := base + 0x14, data := some (lohi phase.code (if s1.front.clock.running then 1 else 0)) }]
      exec (.presetReadComplete preset) s = .next { s1 with
        front := { s1.front with clock := { s1.front.clock with remaining := remaining, phase := phase } },
        engine := s1.engine.issue .headerWrite fields none }

/-- O21 (R26, R162, R167, R168, R169, R173, R176): the writes of AREA BASE, ACTION, DONE LOW, DONE HIGH
and ATTENTION; and where a command or a register write leaves no trace: a command in a state that does not
take it, and every one of them while the reset line is active. -/
def Obligations.RegisterWritesAreTakenOrLeaveNoTrace : Prop :=
  (∀ s : State,
    (s.front.ctl ≠ .config → exec .start s = .next s) ∧
    (s.front.ctl ≠ .run → exec .stop s = .next s) ∧
    (s.front.ctl ≠ .run → s.front.ctl ≠ .draining →
      exec .abortAll s = .next s ∧ exec .clockLoad s = .next s ∧ exec .clockRun s = .next s ∧
      exec .clockHalt s = .next s) ∧
    (s.front.resetLine = true → ∀ (moved : Nat) (high : Bool) (w : Word),
      ∀ c ∈ [Instr.start, .stop, .abortAll, .reset moved, .clockLoad, .clockRun, .clockHalt,
        .areaBaseWrite w, .actionWrite w, .doneClear high w, .attentionClear w], exec c s = .next s)) ∧
  ∀ (s : State) (w : Word), s.front.resetLine = false →
    (s.front.ctl = .config →
      exec (.areaBaseWrite w) s = .next { s with front := { s.front with areaBase := w.setWidth 12 } }) ∧
    (s.front.ctl ≠ .config → exec (.areaBaseWrite w) s = .next s) ∧
    (s.front.ctl = .run ∨ s.front.ctl = .draining →
      (s.front.actionQ.length < 8 →
        exec (.actionWrite w) s = .next { s with front := { s.front with
          actionQ := s.front.actionQ ++ [w] } }) ∧
      (8 ≤ s.front.actionQ.length →
        exec (.actionWrite w) s = .next { s with engine := { s.engine with
          attention := s.engine.attention ||| BitVec.twoPow 10 7 } })) ∧
    (s.front.ctl ≠ .run → s.front.ctl ≠ .draining → exec (.actionWrite w) s = .next s) ∧
    (∀ high : Bool, ∃ x, exec (.doneClear high w) s = .next { s with front := x } ∧
      x = { s.front with done := x.done, notify := x.notify } ∧
      ∀ slot < 32,
        let hit := w.getLsbD (slot % 16) && (decide (16 ≤ slot) == high)
        x.done.getLsbD slot = (s.front.done.getLsbD slot && !hit) ∧
        x.notify.getLsbD slot = (s.front.notify.getLsbD slot && !hit)) ∧
    ∃ a, exec (.attentionClear w) s = .next { s with engine := { s.engine with attention := a } } ∧
      ∀ k < 10, a.getLsbD k = (s.engine.attention.getLsbD k && !w.getLsbD k)

/-! ### The order intake -/

/-- O22 (R7, R8, R9, R10, R17, R18, R19; log 16): a POST of a slot 0 to 31 taken in RUN, and the decision
on it. A held slot is answered ALREADY_HELD and nothing is read; otherwise the 16 words of the slot are
asked of the port, and the intake waits for them. When the slot has been read the POST is not posted;
refused, with its result fields, the phase FINISHED and the DONE bit to follow; an immediate order, its
effect applied and finished OK; or accepted at the tail of the list. Outside RUN it is then answered
NOT_RUNNING, which is the model's choice (log 16). -/
def Obligations.PostIsTakenAndDecided : Prop :=
  (∀ (s s1 : State) (w : Word) (rest : List Word),
    s.front.ctl = .run → s.front.actionQ = w :: rest → actionCode w = 1 → actionOperand w ≤ 31 →
    s.intakeReady = some s1 →
    let x : Front := { s1.front with actionQ := s1.front.actionQ.tail }
    let base := s1.front.areaBase.toNat * 256
    ((∃ o, s1.engine.order? (actionOperand w) = some o) →
      exec .post s = .next (State.settle { s1 with
        front := { x with intake := .recording },
        engine := s1.engine.issue .headerWrite
          [{ addr := base + 0x0C, data := some w }, { addr := base + 0x0E, data := some 3 }]
          (some .lastAction) })) ∧
    (s1.engine.order? (actionOperand w) = none →
      exec .post s = .next (State.settle { s1 with
        front := { x with intake := .reading w },
        engine := s1.engine.issue .slotRead
          ((List.range 16).map fun k =>
            { addr := base + (0x240 + 32 * actionOperand w + 2 * k), data := none })
          (some .slotRead) }))) ∧
  ∀ (s s1 : State) (w : Word) (ws : List Word) (n : Notice),
    s.front.intake = .reading w → s.await (fun n => n == .slotRead) = some (n, s1) →
    let x := s1.front
    let slot := actionOperand w
    let raw := rawOrder ws
    (s.front.ctl ≠ .run → exec (.slotReadComplete ws) s = .next { s1 with
      front := { x with intake := .recording },
      engine := s1.engine.writeLastAction x w .notRunning }) ∧
    (s.front.ctl = .run →
    (raw.phase ≠ 1 → exec (.slotReadComplete ws) s = .next (State.settle { s1 with
      front := { x with intake := .recording },
      engine := s1.engine.writeLastAction x w .notPosted })) ∧
    (raw.phase = 1 → ∀ code, checkOrder x s1.engine raw = .error code →
      exec (.slotReadComplete ws) s = .next (State.settle { s1 with
        front := { x with intake := .closing w },
        engine := (s1.engine.writeResults x slot
          { code := code, served := 0, sectorsDone := 0, retries := 0, missed := 0, retiredMet := 0,
            logged := 0, fail := none, runs := 0, missedRounds := 0 }).writePhase x slot 5
            (some (.doneBit slot raw.notify .refused false)) })) ∧
    (raw.phase = 1 → ∀ f, checkOrder x s1.engine raw = .ok f → f.kind.immediate = true →
      exec (.slotReadComplete ws) s = .next (State.settle { s1 with
        front := { x with intake := .closing w },
        engine := ((s1.engine.immediate x f).writeResults x slot
          { code := .ok,
            served := if f.kind = .detach then (if f.drive.side = .A then 1 else 2) else 0,
            sectorsDone := 0, retries := 0, missed := 0, retiredMet := 0, logged := 0, fail := none,
            runs := 0, missedRounds := 0 }).writePhase x slot 5
            (some (.doneBit slot raw.notify .immediate false)) })) ∧
    (raw.phase = 1 → ∀ f, checkOrder x s1.engine raw = .ok f → f.kind.immediate = false →
      exec (.slotReadComplete ws) s = .next (State.settle { s1 with
        front := { x with intake := .recording },
        engine := (s1.engine.accept x slot f).writeLastAction x w .taken })))

/-- O23 (R5, R6, R18, R40; log 65): what acceptance leaves: the order at the tail, QUEUED or, when
standing, waiting for a round, with age 0, no mark, nothing done and the generations of the drives it
covers; the desk's held count and the held count of each covered drive are 1 higher. That the drives'
counts are handed over when the phase write is issued, without waiting for its completion, is the model's
choice (log 65). -/
def Obligations.AcceptedOrderJoinsTheTail : Prop :=
  ∀ (x : Front) (e : Engine) (slot : Nat) (f : OrderFields), f.desk < e.deskHeld.length →
    (∃ o, (e.accept x slot f).held = e.held ++ [o] ∧ o.slot = slot ∧ o.fields = f ∧
      o.state = (if f.standing then .waitingRound else .queued) ∧ o.age = 0 ∧ o.withdrawMark = none ∧
      o.changed = false ∧ o.sectorsDone = 0 ∧ o.retries = 0 ∧ o.missed = 0 ∧ o.retiredMet = 0 ∧
      o.logged = 0 ∧ o.runs = 0 ∧ o.missedRounds = 0 ∧ o.served = BySide.both false ∧ o.finish = none ∧
      (∀ c i, o.entry c i = .notBegun) ∧
      (∀ c, o.generation.get c = if f.covers ⟨c, f.drive.pair⟩ then
        some (e.drive ⟨c, f.drive.pair⟩).generation else none)) ∧
    (∀ k, (e.accept x slot f).deskHeld.getD k 0 = e.deskHeld.getD k 0 + if k = f.desk then 1 else 0) ∧
    (∀ d, ((e.accept x slot f).drive d).heldCount = (e.drive d).heldCount + if f.covers d then 1 else 0) ∧
    (e.accept x slot f).log = e.log ∧ (e.accept x slot f).channels = e.channels ∧
    (e.accept x slot f).pairs = e.pairs

/-- O24 (R16, R19, R53, R58, R60, R63, R74, R148; log 18): LOCK sets the mount hold of its drive, UNLOCK
clears it, and in RUN and DRAINING the drive's door lock follows. DETACH runs the pair on the named
drive's side alone: the pair is DETACHED with that side kept and its lost count as it was, the log keeps
all entries but the pair's with that side good, and every order of the pair in BOUND-WAIT is QUEUED again,
its reservation returned and its channel freed; no other order changes. A DETACH of a pair already
DETACHED with that side kept changes nothing, a BOUND-WAIT order of the pair included, which is the
model's choice between R16 and R74 (log 18). No other kind is an immediate order. -/
def Obligations.ImmediateOrdersHaveTheirEffect : Prop :=
  ∀ (x : Front) (e : Engine) (f : OrderFields),
    let p := f.drive.pair
    let e' := e.immediate x f
    let kept := (e.pairs.get p).mode = .detached ∧ (e.pairs.get p).kept = f.drive.side
    let returns (o : Order) : Bool :=
      o.fields.pairCopy && o.fields.drive.pair == p && o.state == .boundWait && o.finish.isNone
    (f.kind.immediate = true ↔ f.kind = .lock ∨ f.kind = .unlock ∨ f.kind = .detach) ∧
    (f.kind = .lock → (e'.drive f.drive).mountHold = true ∧
      (x.active = true → (x.record f.drive).aux = .doorLock → (e'.drive f.drive).latch = true)) ∧
    (f.kind = .unlock → (e'.drive f.drive).mountHold = false ∧
      (x.active = true → (x.record f.drive).aux = .doorLock →
        (e'.drive f.drive).latch = decide (0 < (e.drive f.drive).heldCount))) ∧
    (f.kind = .lock ∨ f.kind = .unlock → e'.log = e.log ∧ e'.pairs = e.pairs ∧ e'.held = e.held ∧
      e'.channels = e.channels ∧ e'.reserved = e.reserved ∧ ∀ d, d ≠ f.drive → e'.drive d = e.drive d) ∧
    (f.kind = .detach → kept → e' = e) ∧
    (f.kind = .detach → ¬kept → (e.held.map Order.slot).Nodup →
      e'.pairs = e.pairs.set p { e.pairs.get p with mode := .detached, kept := f.drive.side } ∧
      e'.log = e.log.filter (fun l => !(l.pair == p && l.good == f.drive.side)) ∧
      e'.held = e.held.map (fun o => if returns o then
        { o with state := .queued, waiter := none, plan := BySide.both false, mirrored := false,
                 reservation := 0 } else o) ∧
      e'.reserved = e.reserved - ((e.held.filter returns).map Order.reservation).sum ∧
      ∀ o ∈ e.held, returns o = true → ∀ c, o.waiter = some c → (e.chan c).order = some o.slot →
        (e'.chan c).order = none)

/-- O25 (R14): check 7, on an order that passes checks 1 to 6. It applies to READ and WRITE, and refuses
BAD_BUFFER an order whose buffer address is odd or whose buffer ends above 0x100000, and no other order.
-/
def Obligations.BufferCheckRefusesWhatDoesNotFit : Prop :=
  ∀ (x : Front) (e : Engine) (raw : RawOrder) (kind : Kind) (policy : Policy) (drive : Drive) (desk : Desk),
    kindOf? raw.kind = some kind → policyOf? raw.policy = some policy →
    Drive.ofNumber? raw.drive = some drive → (x.record drive).present = true →
    x.tables.desks[raw.desk]? = some desk → desk.enabled = true → e.deskHeld.getD raw.desk 0 < desk.limit →
    let f := raw.fields kind policy drive
    let pair := e.pairs.get drive.pair
    (f.pairCopy = true → pair.bound = true) →
    (f.pairCopy = false → kind.writes = true → pair.bound = false ∨ pair.mode = .detached) →
    rangeOk (x.record drive) f = true →
    let size := 128 * 2 ^ (x.record drive).sizeCode
    (checkOrder x e raw = .error .badBuffer ↔
      (kind = .read ∨ kind = .write) ∧
        (f.buffer % 2 = 1 ∨ 0x100000 < f.buffer + f.count * size))

/-- O26 (R15): checks 8 and 9, on an order that passes checks 1 to 7. Check 8 refuses BAD_STANDING a
STANDING order that is not a READ, WRITE or CHECK, or whose round mask or round value is above 63; check 9
refuses LATE a DROP order in the phase CLOSED and in no other, whether or not the clock runs. An order
that passes them is judged by check 10 alone: where that finds nothing against it, it is accepted with its
fields as read. -/
def Obligations.StandingAndDropChecks : Prop :=
  ∀ (x : Front) (e : Engine) (raw : RawOrder) (kind : Kind) (policy : Policy) (drive : Drive) (desk : Desk),
    kindOf? raw.kind = some kind → policyOf? raw.policy = some policy →
    Drive.ofNumber? raw.drive = some drive → (x.record drive).present = true →
    x.tables.desks[raw.desk]? = some desk → desk.enabled = true → e.deskHeld.getD raw.desk 0 < desk.limit →
    let f := raw.fields kind policy drive
    let pair := e.pairs.get drive.pair
    (f.pairCopy = true → pair.bound = true) →
    (f.pairCopy = false → kind.writes = true → pair.bound = false ∨ pair.mode = .detached) →
    rangeOk (x.record drive) f = true → bufferOk (x.record drive) f = true →
    let badStanding : Prop := raw.standing = true ∧
      ((kind ≠ .read ∧ kind ≠ .write ∧ kind ≠ .check) ∨ 63 < raw.roundMask ∨ 63 < raw.roundValue)
    let late : Prop := raw.drop = true ∧ x.clock.phase = .closed
    (badStanding → checkOrder x e raw = .error .badStanding) ∧
    (¬badStanding → late → checkOrder x e raw = .error .late) ∧
    (¬badStanding → ¬late → e.kindRefusal x f = none → checkOrder x e raw = .ok f) ∧
    (¬badStanding → ¬late → ∀ code, e.kindRefusal x f = some code → checkOrder x e raw = .error code)

/-- O27 (R11, R12, R13, R14, R15, R16; log 15, log 46, log 56): an order that passes the ten checks: its
kind has a code and its policy one of 0 to 2 for every kind, which is the model's choice (log 15); its
drive is present, its desk is enabled and has room, its copy fits its pair, its whole run of sectors lies
inside the geometry, its buffer fits, its standing fields and its DROP flag stand, and check 10 has
nothing against it. The first of the checks 1 to 6 that fails names the refusal: BAD_KIND, BAD_DRIVE,
BAD_DESK, DESK_FULL, NOT_PAIRED or NOT_SINGLE, BAD_RANGE; where none fails no such code is given. Check 10
refuses NO_LOCK a LOCK or UNLOCK of a drive without a door lock; a DETACH it refuses PAIR_SPLIT when the
log holds an entry of the pair with the other side good or the pair is DETACHED with the other side kept,
else PAIR_BUSY when a PAIR order of the pair runs. The model's choices are that an order whose finish is
decided no longer counts as running (log 46), and that PAIR_BUSY also refuses a DETACH that would change
nothing (log 56). -/
def Obligations.ChecksRefuseByTheFirstThatFails : Prop :=
  ∀ (x : Front) (e : Engine),
    (∀ (raw : RawOrder) (f : OrderFields), checkOrder x e raw = .ok f →
      let r := x.record f.drive
      raw.kind = f.kind.code ∧ raw.policy ≤ 2 ∧ raw.drive = f.drive.number ∧ r.present = true ∧
      (∃ d, x.tables.desks[raw.desk]? = some d ∧ d.enabled = true ∧ e.deskHeld.getD raw.desk 0 < d.limit) ∧
      f.desk = raw.desk ∧
      (f.pairCopy = true → (e.pairs.get f.drive.pair).bound = true) ∧
      (f.pairCopy = false → f.kind.writes = true →
        (e.pairs.get f.drive.pair).bound = false ∨ (e.pairs.get f.drive.pair).mode = .detached) ∧
      (f.kind = .read ∨ f.kind = .write ∨ f.kind = .check ∨ f.kind = .retire →
        f.cylinder < r.cylinders ∧ f.surface < r.surfaces ∧
        r.firstSector ≤ f.firstSector ∧ f.firstSector < r.firstSector + r.sectors ∧
        1 ≤ f.count ∧ f.count ≤ 32 ∧
        (f.cylinder * r.surfaces + f.surface) * r.sectors + (f.firstSector - r.firstSector) + f.count - 1 <
          r.cylinders * r.surfaces * r.sectors) ∧
      (f.kind = .format → f.cylinder < r.cylinders ∧ f.surface < r.surfaces) ∧
      (f.kind = .seek → f.cylinder < r.cylinders) ∧
      (f.kind = .read ∨ f.kind = .write →
        f.buffer % 2 = 0 ∧ f.buffer + f.count * (128 * 2 ^ r.sizeCode) ≤ 0x100000) ∧
      (raw.standing = true → (f.kind = .read ∨ f.kind = .write ∨ f.kind = .check) ∧
        raw.roundMask ≤ 63 ∧ raw.roundValue ≤ 63) ∧
      (raw.drop = true → x.clock.phase ≠ .closed) ∧
      e.kindRefusal x f = none) ∧
    (∀ raw : RawOrder,
      let refused (code : FinishCode) : Prop := checkOrder x e raw = .error code
      ((∀ k : Kind, k.code ≠ raw.kind) ∨ 2 < raw.policy → refused .badKind) ∧
      ∀ (kind : Kind) (policy : Policy), kind.code = raw.kind → policyOf? raw.policy = some policy →
        ((∀ d : Drive, d.number = raw.drive → (x.record d).present = false) → refused .badDrive) ∧
        ∀ drive : Drive, drive.number = raw.drive → (x.record drive).present = true →
          ((∀ d, x.tables.desks[raw.desk]? = some d → d.enabled = false) → refused .badDesk) ∧
          ∀ desk, x.tables.desks[raw.desk]? = some desk → desk.enabled = true →
            let held := e.deskHeld.getD raw.desk 0
            (desk.limit ≤ held → refused .deskFull) ∧
            (held < desk.limit →
              let f := raw.fields kind policy drive
              let r := x.record drive
              let bound := (e.pairs.get drive.pair).bound
              let writes : Prop := kind = .write ∨ kind = .format ∨ kind = .retire
              let run : Prop := kind = .read ∨ kind = .write ∨ kind = .check ∨ kind = .retire
              let notPaired : Prop := f.pairCopy = true ∧ bound = false
              let notSingle : Prop := f.pairCopy = false ∧ writes ∧ bound = true ∧
                (e.pairs.get drive.pair).mode = .attached
              let outside : Prop :=
                ((run ∨ kind = .format ∨ kind = .seek) ∧ r.cylinders ≤ f.cylinder) ∨
                ((run ∨ kind = .format) ∧ r.surfaces ≤ f.surface) ∨
                (run ∧ (f.firstSector < r.firstSector ∨ r.firstSector + r.sectors ≤ f.firstSector ∨
                  f.count = 0 ∨ 32 < f.count ∨
                  r.cylinders * r.surfaces * r.sectors ≤
                    (f.cylinder * r.surfaces + f.surface) * r.sectors + (f.firstSector - r.firstSector) +
                      f.count - 1))
              (notPaired → refused .notPaired) ∧ (notSingle → refused .notSingle) ∧
              (¬notPaired → ¬notSingle → outside → refused .badRange) ∧
              (¬notPaired → ¬notSingle → ¬outside → ∀ code ∈ [FinishCode.badKind, .badDrive, .badDesk, .deskFull,
                .notPaired, .notSingle, .badRange], ¬refused code))) ∧
    ∀ f : OrderFields,
      let split : Prop :=
        (∃ l ∈ e.log, l.pair = f.drive.pair ∧ l.good = f.drive.side.other) ∨
        ((e.pairs.get f.drive.pair).mode = .detached ∧
          (e.pairs.get f.drive.pair).kept = f.drive.side.other)
      let busy : Prop := ∃ o ∈ e.held, o.state = .running ∧ o.finish = none ∧ o.fields.pairCopy = true ∧
        o.fields.drive.pair = f.drive.pair
      (f.kind = .lock ∨ f.kind = .unlock →
        ((x.record f.drive).aux = .doorLock → e.kindRefusal x f = none) ∧
        ((x.record f.drive).aux ≠ .doorLock → e.kindRefusal x f = some .noLock)) ∧
      (f.kind = .detach →
        (split → e.kindRefusal x f = some .pairSplit) ∧
        (¬split → busy → e.kindRefusal x f = some .pairBusy) ∧
        (¬split → ¬busy → e.kindRefusal x f = none)) ∧
      (f.kind ≠ .lock → f.kind ≠ .unlock → f.kind ≠ .detach → e.kindRefusal x f = none)

/-- O28 (R7, R9, R20, R21, R22; log 45): a WITHDRAW or a REPOST of a slot 0 to 31 taken in RUN. WITHDRAW:
not held, or its finish decided, is answered NOT_HELD; held and waiting, it finishes WITHDRAWN; running,
it gets its mark (an older one stands) and its channels are asked to stop. REPOST: a held standing order
gets its changed mark, whatever its roster state, and is otherwise as it was; a held order without
STANDING is answered NOT_STANDING; a slot not held, or whose finish has been decided, NOT_HELD; the slot
is neither read nor written. After a WITHDRAW that has finished its order the intake waits for the writes
of that finish, its count writes last, and otherwise for the last-action record. That a running order is
waited for only where its channels stop at once is the model's choice (log 45). -/
def Obligations.WithdrawAndRepostAreTaken : Prop :=
  ∀ (s s1 : State) (w : Word) (rest : List Word),
    s.front.ctl = .run → s.front.actionQ = w :: rest → actionOperand w ≤ 31 → s.intakeReady = some s1 →
    let x : Front := { s1.front with actionQ := s1.front.actionQ.tail, intake := .free }
    let base := s1.front.areaBase.toNat * 256
    let slot := actionOperand w
    let answered (e : Engine) (outcome : Word) : State :=
      State.settle { s1 with
        front := { x with intake := .recording },
        engine := e.issue .headerWrite
          [{ addr := base + 0x0C, data := some w }, { addr := base + 0x0E, data := some outcome }]
          (some .lastAction) }
    let finished (e : Engine) : State :=
      State.settle { s1 with
        front := { x with intake := .finishing slot },
        engine := e.issue .headerWrite
          [{ addr := base + 0x0C, data := some w }, { addr := base + 0x0E, data := some 0 }] none }
    (actionCode w = 2 →
      (s1.engine.order? slot = none → exec .withdraw s = .next (answered s1.engine 4)) ∧
      ∀ o, s1.engine.order? slot = some o →
        (o.finish ≠ none → exec .withdraw s = .next (answered s1.engine 4)) ∧
        (o.finish = none → o.state ≠ .running →
          exec .withdraw s = .next (finished (s1.engine.finishWaiting x slot .withdrawn false))) ∧
        (o.finish = none → o.state = .running →
          let e : Engine := (s1.engine.updOrder slot fun o =>
            { o with withdrawMark := some (o.withdrawMark.getD .withdrawn) }).stopOrder x slot
          ((∀ o', e.order? slot = some o' → o'.finish = none) → exec .withdraw s = .next (answered e 0)) ∧
          ((∃ o', e.order? slot = some o' ∧ o'.finish ≠ none) → exec .withdraw s = .next (finished e)))) ∧
    (actionCode w = 3 →
      (s1.engine.order? slot = none → exec .repost s = .next (answered s1.engine 4)) ∧
      ∀ o, s1.engine.order? slot = some o →
        (o.finish ≠ none → exec .repost s = .next (answered s1.engine 4)) ∧
        (o.finish = none → o.fields.standing = false →
          exec .repost s = .next (answered s1.engine 5)) ∧
        (o.finish = none → o.fields.standing = true →
          exec .repost s = .next (answered
            { s1.engine with held := s1.engine.held.map fun o =>
                if o.slot == slot then { o with changed := true } else o } 0)))

/-- O29 (R6, R18, R20, R24, R25, R26, R61, R63, R86, R98, R153, R174; log 7, log 13, log 37, log 65): the
writes of an acceptance, of a finish and of leaving the list, by address and word. An acceptance writes
the phase QUEUED, or STANDING, the desk's held count, the held total, and the status record of each drive
the order covers. The finish of a held order returns its reservation, with the reserved total written,
then writes the seven words of the results, then the phase FINISHED, after which its DONE bit is told; a
LATE finish shows counters of 0, for a MEND the model's choice (log 37). A waiting order's finish frees
its channel as well. A run of a standing order that does not end it is written so too, with the phase
STANDING, and the order waits for a round with its run's items at their acceptance values. Leaving the
list writes the counts lowered. That the requests of different blocks at one event join the queue in the
order stated is the model's choice (log 7), and so is one status record for a drive whose held count and
door lock change together (log 13), and that an acceptance's counts are handed over when its phase write
is issued (log 65). -/
def Obligations.FinishesAndCountsAreWritten : Prop :=
  ∀ (x : Front) (e : Engine) (slot : Nat),
    let base := x.areaBase.toNat * 256
    let slotBase := base + (0x240 + 32 * slot)
    let phase (n : Word) (notice : Option Notice) : Request :=
      { kind := .slotWrite, words := [{ addr := slotBase, data := some n }], notice := notice }
    let results (r : Results) : Request :=
      let (cylinder, surface, sector) := match r.fail with
        | some p => (p.cylinder, p.surface, p.sector)
        | none => (0xFF, 0xFF, 0xFF)
      { kind := .slotWrite,
        words := [{ addr := slotBase + 0x12, data := some (lohi r.code.code r.served) },
          { addr := slotBase + 0x14, data := some (BitVec.ofNat 16 r.sectorsDone) },
          { addr := slotBase + 0x16, data := some (lohi r.retries r.missed) },
          { addr := slotBase + 0x18, data := some (lohi r.retiredMet r.logged) },
          { addr := slotBase + 0x1A, data := some (lohi cylinder surface) },
          { addr := slotBase + 0x1C, data := some (lohi sector x.round.toNat) },
          { addr := slotBase + 0x1E, data := some (lohi r.runs r.missedRounds) }],
        notice := none }
    let counts (desk held total : Nat) : List Request :=
      [{ kind := .deskWrite, words := [{ addr := base + (0x080 + 8 * desk + 6), data := some (BitVec.ofNat 16 held) }],
         notice := none },
       { kind := .headerWrite, words := [{ addr := base + 0x1C, data := some (BitVec.ofNat 16 total) }],
         notice := none }]
    let statuses (e : Engine) (f : OrderFields) : List Request := (Drive.all.filter fun d => f.covers d).map fun d =>
      { kind := .statusWrite,
        words := (e.drive d).words.zipIdx.map fun p =>
          { addr := base + (0x100 + 16 * d.number + 2 * p.2), data := some p.1 },
        notice := none }
    let issued (e : Engine) (rs : List Request) : Port := { e.port with queue := e.port.queue ++ rs }
    (∀ r n notice, (e.writeResults x slot r).port = issued e [results r] ∧
      (e.writePhase x slot n notice).port = issued e [phase (BitVec.ofNat 16 n) notice]) ∧
    (∀ f, (e.accept x slot f).port = issued e (phase (if f.standing then 4 else 2) none ::
      (counts f.desk ((e.accept x slot f).deskHeld.getD f.desk 0) (e.held.length + 1) ++
        statuses (e.accept x slot f) f))) ∧
    ∀ o, e.order? slot = some o → (e.held.map Order.slot).Nodup →
      let returned : List Request := if o.reservation = 0 then [] else
        [{ kind := .headerWrite,
           words := [{ addr := base + 0x22, data := some (BitVec.ofNat 16 (e.reserved - o.reservation)) }],
           notice := none }]
      let shown (late : Bool) (code : FinishCode) : Results :=
        let n (k : Nat) : Nat := if late then 0 else k
        let media : Prop := code = .sectorNotFound ∨ code = .idCheck ∨ code = .dataCheck ∨ code = .verifyFailed ∨
          code = .retiredFound
        { code := code,
          served := n ((if o.served.a then 1 else 0) + if o.served.b then 2 else 0),
          sectorsDone := n o.sectorsDone, retries := n o.retries, missed := n o.missed,
          retiredMet := n o.retiredMet, logged := n o.logged,
          fail := match o.pendingCode with
            | some (c, p) => if late = false ∧ c = code ∧ media then some p else none
            | none => none
          runs := if o.fields.standing then o.runs else 0,
          missedRounds := if o.fields.standing then o.missedRounds else 0 }
      let became (f : Order → Order) (rs : List Request) : Engine :=
        { e with
          held := e.held.map fun o' => if o'.slot == slot then f { o' with reservation := 0 } else o',
          reserved := e.reserved - o.reservation, port := issued e (returned ++ rs) }
      (∀ code late, o.finish = none →
        e.decideFinish x slot code late =
          became (fun o => { o with finish := some code, waiter := none, cursor := none, turn := none })
            [results (shown late code), phase 5 (some (.doneBit slot o.fields.notify .leaves late))] ∧
        (o.waiter = none → e.finishWaiting x slot code late = e.decideFinish x slot code late) ∧
        ∀ c, o.waiter = some c → (e.chan c).order = some slot →
          ((e.finishWaiting x slot code late).chan c).order = none) ∧
      (∀ code, e.backToStanding x slot code =
        became (fun o =>
          { o with
            state := .waitingRound, progress := BySide.both (List.replicate 32 .notBegun), sectorsDone := 0,
            retries := 0, missed := 0, retiredMet := 0, logged := 0, served := BySide.both false, stale := false,
            pendingCode := none, changedMedium := false, plan := BySide.both false, mirrored := false,
            waiter := none, sideFailure := BySide.both none, resolved := [] })
          [results (shown false code), phase 4 (some (.doneBit slot o.fields.notify .stays false))]) ∧
      (o.finish ≠ none → (∀ d, o.fields.covers d = true → 0 < (e.drive d).heldCount) →
        (e.leaveList x slot).port = issued e
          (counts o.fields.desk ((e.leaveList x slot).deskHeld.getD o.fields.desk 0) (e.held.length - 1) ++
            statuses (e.leaveList x slot) o.fields))

/-- O30 (R7, R155, R156, R159, R176; log 14, log 45, log 57): the other actions. SURVEY_ONCE, SURVEY_LOOP
and SURVEY_STOP taken in RUN: a mask of no drive that is configured is answered BAD_MASK; with the survey
OFF a pass begins at the lowest drive; otherwise the mode and mask become the pending request. SURVEY_STOP
ends the survey; a step in hand runs on at its channel alone, one not begun for an unload touch included,
which is the model's choice (log 57). A code outside 1 to 6, and in RUN a slot operand above 31, is
answered BAD_ACTION. In DRAINING the six actions are answered NOT_RUNNING, an operand above 31 included,
which is the model's choice (log 14). No action is taken while the writes of the one before are still to
come: its slot's read, the DONE bit of a refusal or an immediate order, the finish of a WITHDRAW (which of
those finishes it waits for: log 45), or its last write. -/
def Obligations.OtherActionsAreAnswered : Prop :=
  (∀ (s s1 : State) (w : Word) (rest : List Word),
    s.front.ctl = .run → s.front.actionQ = w :: rest → s.intakeReady = some s1 →
    let x : Front := { s1.front with actionQ := s1.front.actionQ.tail, intake := .free }
    let v := s1.engine.survey
    let answered (e : Engine) (o : ActionOutcome) : State :=
      State.settle { s1 with front := { x with intake := .recording }, engine := e.writeLastAction x w o }
    (∀ c m, (c, m, actionCode w) ∈ [(Instr.surveyOnce, SurveyMode.once, 4), (.surveyLoop, .loop, 5)] →
      ∃ mask : ByDrive Bool,
        (∀ d, mask.drive d =
          (w.getLsbD d.number && decide ((s1.engine.drive d).state ≠ .unconfigured))) ∧
        ((∀ d, mask.drive d = false) → exec c s = .next (answered s1.engine .badMask)) ∧
        ((∃ d, mask.drive d = true) → v.mode = .off → ∃ next,
          mask.drive next = true ∧ (∀ d, mask.drive d = true → next.number ≤ d.number) ∧
          exec c s = .next (answered
            (s1.engine.setSurvey x { v with mode := m, mask := mask, next := some next, waiting := 0 })
            .taken)) ∧
        ((∃ d, mask.drive d = true) → v.mode ≠ .off →
          exec c s = .next (answered (s1.engine.setSurvey x { v with request := some (m, mask) }) .taken))) ∧
    (actionCode w = 6 → exec .surveyStop s = .next (answered
      (s1.engine.setSurvey x
        { v with
          mode := .off, mask := BySide.allDrives false, request := none, next := none, waiting := 0,
          step := none,
          orphans := match v.step with
            | some d => v.orphans.set d.side (some d)
            | none => v.orphans }) .taken))) ∧
  (∀ (s s1 : State) (w : Word) (rest : List Word),
    s.front.actionQ = w :: rest → s.intakeReady = some s1 →
    let x : Front := { s1.front with actionQ := s1.front.actionQ.tail, intake := .recording }
    let base := s1.front.areaBase.toNat * 256
    let answered (outcome : Word) : State :=
      { s1 with
        front := x,
        engine := s1.engine.issue .headerWrite
          [{ addr := base + 0x0C, data := some w }, { addr := base + 0x0E, data := some outcome }]
          (some .lastAction) }
    (s.front.ctl = .run ∨ s.front.ctl = .draining → (actionCode w = 0 ∨ 6 < actionCode w) →
      exec .badAction s = .next (answered 8)) ∧
    (s.front.ctl = .run → 1 ≤ actionCode w → actionCode w ≤ 3 → 31 < actionOperand w →
      exec .badAction s = .next (answered 8)) ∧
    (s.front.ctl = .draining →
      (actionCode w = 1 → actionOperand w ≤ 31 → exec .post s = .next (answered 6)) ∧
      (actionCode w = 2 → actionOperand w ≤ 31 → exec .withdraw s = .next (answered 6)) ∧
      (actionCode w = 3 → actionOperand w ≤ 31 → exec .repost s = .next (answered 6)) ∧
      (actionCode w = 4 → exec .surveyOnce s = .next (answered 6)) ∧
      (actionCode w = 5 → exec .surveyLoop s = .next (answered 6)) ∧
      (actionCode w = 6 → exec .surveyStop s = .next (answered 6)) ∧
      (1 ≤ actionCode w → actionCode w ≤ 3 → 31 < actionOperand w →
        exec .badAction s = .next (answered 6)))) ∧
  ∀ (s : State) (c : Instr),
    c ∈ [Instr.post, .withdraw, .repost, .surveyOnce, .surveyLoop, .surveyStop, .badAction] →
    ((∃ w, s.front.intake = .reading w) ∨ (∃ w, s.front.intake = .closing w) ∨
      (∃ slot, s.front.intake = .finishing slot) ∨
      (s.front.intake = .recording ∧ s.await (fun n => n == .lastAction) = none)) →
    exec c s = .next s

/-! ### The memory port -/

/-- O31 (R171, Conventions; log 5): the record queue is served in order: when a block acts on a completion
that the port has not yet told, every request before it and the request itself have moved their words, and
the requests behind it wait. A channel's words go before a record request: where a request has so been
served from a port at rest, no channel has a word waiting. A word written puts its low-order byte at its
address and its high-order byte at the next, and every other byte is as it was; a word read changes
nothing. That the accesses are made at the command that tells of the completion, where no BUS_GRANT has
made them before, is the model's choice (log 5). -/
def Obligations.RecordRequestsAreServedInOrder : Prop :=
  (∀ (s : State) (p : Notice → Bool) (before after : List Request) (r : Request) (n : Notice),
    s.engine.port.inProgress = none → s.engine.port.notices.all (fun m => !(p m)) = true →
    (∀ c, (s.engine.chan c).wordWaiting = false) →
    s.engine.port.queue = before ++ r :: after →
    (∀ q ∈ before, ∀ m, q.notice = some m → p m = false) → r.notice = some n → p n = true →
    s.await p = some (n, { s with
      mem := memAccesses (memAccesses s.mem (before.flatMap Request.words)) r.words,
      engine := { s.engine with port := { s.engine.port with
        queue := after,
        notices := s.engine.port.notices ++ before.filterMap Request.notice } } })) ∧
  (∀ (s s1 : State) (p : Notice → Bool) (n : Notice),
    s.engine.port.inProgress = none → s.engine.port.notices.all (fun m => !(p m)) = true →
    s.await p = some (n, s1) → ∀ c, (s1.engine.chan c).wordWaiting = false) ∧
  (∀ (m : List Host.Cell) (a : Nat) (w : Word) (k : Nat), a + 1 < 0x100000 →
    memRead (memAccesses m [{ addr := a, data := some w }]) k =
      if k = a then some (w.setWidth 8)
      else if k = a + 1 then some ((w >>> 8).setWidth 8) else memRead m k) ∧
  (∀ (m : List Host.Cell) (a : Nat), memAccesses m [{ addr := a, data := none }] = m) ∧
  ∀ (m : List Host.Cell) (ws vs : List Access),
    memAccesses m (ws ++ vs) = memAccesses (memAccesses m ws) vs

/-- O32 (R171; log 6, log 66): BUS_GRANT. With no access in progress a channel's word goes before a record
request, and of two channels with words waiting the one not served last goes; with nothing waiting nothing
starts. With a record request in progress its words have landed, its block is told, and the next access
starts; with a channel's word in progress that word of its first unfinished transfer has moved, a copy's
into memory, and the next access starts. That one grant stands for a whole record request, and that it
starts the next access as well, is the model's choice (log 6), and so is that a channel's transfers move
one after the other, the one begun first before the next (log 66). -/
def Obligations.GrantPrefersWaitingWords : Prop :=
  ∀ s : State,
    let a := (s.engine.chan .A).wordWaiting
    let b := (s.engine.chan .B).wordWaiting
    let word (c : Side) : State := { s with engine := { s.engine with
      port := { s.engine.port with inProgress := some (.word c), lastWord := c } } }
    (s.engine.port.inProgress = none →
      (a = true → b = true → exec .busGrant s = .next (word s.engine.port.lastWord.other)) ∧
      (a = true → b = false → exec .busGrant s = .next (word .A)) ∧
      (a = false → b = true → exec .busGrant s = .next (word .B)) ∧
      (a = false → b = false → s.engine.port.queue ≠ [] →
        exec .busGrant s = .next { s with engine := { s.engine with
          port := { s.engine.port with inProgress := some .record } } }) ∧
      (a = false → b = false → s.engine.port.queue = [] → exec .busGrant s = .next s)) ∧
    (∀ r rest, s.engine.port.inProgress = some .record → s.engine.port.queue = r :: rest →
      let landed (next : Option BusAccess) : State := { s with
        mem := memAccesses s.mem r.words,
        engine := { s.engine with port := { s.engine.port with
          queue := rest, notices := s.engine.port.notices ++ r.notice.toList, inProgress := next } } }
      exec .busGrant s = exec .busGrant (landed none) ∧
      (a = false → b = false →
        exec .busGrant s = .next (landed (if rest = [] then none else some .record)))) ∧
    ∀ (c : Side) (t : Transfer) (moved rest : List Transfer), s.engine.port.inProgress = some (.word c) →
      (s.engine.chan c).transfers = moved ++ t :: rest → (∀ u ∈ moved, u.words ≤ u.moved) →
      t.moved < t.words →
      exec .busGrant s = exec .busGrant { s with
        mem := if t.toHost then
            memWriteWord s.mem (t.addr + 2 * t.moved)
              (bufferWord ((s.engine.chan c).buffers.get t.buf).data t.moved)
          else s.mem,
        engine := { s.engine.setChan c { s.engine.chan c with
            transfers := moved ++ { t with moved := t.moved + 1 } :: rest } with
          port := { s.engine.port with inProgress := none } } }

/-- O33 (R7, R30, R97, R120, R141, R172; log 5, log 43, log 44, log 66): a bus error on a record access in
CONFIG, STARTING, RUN or DRAINING enters FAULT: the words before the failed one have moved and no more,
FAULT is set, the channels stop with their write gates down and their select lines as they were, the queue
is discarded, and one header write with the state, the fault code and the failed word's 20-bit address is
issued. In FAULT the failed request is abandoned. A bus error on a channel's buffer access leaves the
controller as it is: the transfer ends and its buffer is free; the order's pending code is MEMORY_ERROR
unless it has one, and its channels are asked to stop. A copy that failed leaves its sector not done. The
model's choices are that a channel gives up its record of its order at the entry to FAULT (log 44), that
the front notes there whether the edition clock was counting (log 43), that the word that fails is of the
transfer begun first (log 66), and that a port at rest is taken to have granted the channel the word that
fails (log 5). -/
def Obligations.BusErrorsEnterFaultOrEndTheOrder : Prop :=
  (∀ (s : State) (r : Request) (rest : List Request) (word : Nat) (failed : Access),
    s.engine.port.queue = r :: rest → r.words[word]? = some failed →
    s.engine.port.inProgress = some .record →
    let base := s.front.areaBase.toNat * 256
    let a := failed.addr % 0x100000
    let header : Request :=
      { kind := .headerWrite,
        words := [{ addr := base, data := some 4 },
          { addr := base + 2, data := some (BitVec.ofNat 16 r.kind.faultCode) },
          { addr := base + 4, data := some (BitVec.ofNat 16 a) },
          { addr := base + 6, data := some (BitVec.ofNat 16 (a / 65536)) }],
        notice := none }
    (s.front.ctl ≠ .fault → ∃ channels : BySide Channel,
      exec (.busErrorRecord word) s = .next { s with
        front := { s.front with
          ctl := .fault, starting := .off,
          faultActive := decide (s.front.ctl = .run ∨ s.front.ctl = .draining) },
        mem := memAccesses s.mem (r.words.take word),
        engine := { s.engine with
          attention := s.engine.attention ||| 0x200#10,
          channels := channels,
          port := { queue := [header], notices := [], inProgress := none,
                    lastWord := s.engine.port.lastWord } } } ∧
      ∀ c, (channels.get c).state = .stopped ∧ (channels.get c).writeGate = false ∧
        (channels.get c).order = none ∧ (channels.get c).transfers = [] ∧
        (channels.get c).selected = (s.engine.chan c).selected ∧
        (channels.get c).headLoad = (s.engine.chan c).headLoad ∧
        (channels.get c).dirInward = (s.engine.chan c).dirInward ∧
        (channels.get c).surfaceOne = (s.engine.chan c).surfaceOne) ∧
    (s.front.ctl = .fault →
      exec (.busErrorRecord word) s = .next { s with
        mem := memAccesses s.mem (r.words.take word),
        engine := { s.engine with port :=
          { queue := [], notices := [], inProgress := none, lastWord := s.engine.port.lastWord } } })) ∧
  ∀ (s : State) (c : Side) (t : Transfer) (o : Order),
    (s.front.ctl = .run ∨ s.front.ctl = .draining) →
    s.engine.port.inProgress = some (.word c) ∨
      (s.engine.port.inProgress = none ∧
        ((s.engine.chan c.other).wordWaiting = false ∨ s.engine.port.lastWord = c.other)) →
    (s.engine.chan c).transfer? = some t → s.engine.orderOf? c = some o →
    let nowhere : Place := { cylinder := 0, surface := 0, sector := 0 }
    let withCode (o : Order) : Order :=
      { o with pendingCode := o.pendingCode.or (some (.memoryError, nowhere)) }
    ∃ e : Engine,
      exec (.memoryError c) s = .next (State.settle { s with
        engine := (e.updOrder o.slot withCode).stopOrder s.front o.slot }) ∧
      (e.chan c).transfers = (s.engine.chan c).transfers.erase t ∧
      ((e.chan c).buffers.get t.buf).use = .free ∧
      e.chan c.other = s.engine.chan c.other ∧
      (t.toHost = false → e.held = s.engine.held) ∧
      (t.toHost = true → e.held = s.engine.held.map fun o' =>
        if o'.slot == o.slot then o'.setEntry c t.pos .notBegun else o') ∧
      e.log = s.engine.log ∧ e.drives = s.engine.drives ∧
      e.port = { s.engine.port with
        inProgress := none,
        lastWord := if s.engine.port.inProgress = none then c else s.engine.port.lastWord }

/-- O34 (R25, R66, R129, R130, R171; log 5, log 66): a READ sector's copy completes: the sector is done
and counted, and its buffer is free. A WRITE sector's fetch completes: its bytes stand in the buffer,
which is ready for the sector while the sector is wanted, and free otherwise; the channel's free buffers
are filled again. Where the port is at rest and no other transfer is before it, every word of the copy
stands in memory at its place and nothing else is written, and a fetch writes nothing; that the words
still to move do so at this command is the model's choice (log 5), and so is that the transfer completed
is the first begun of its direction (log 66). -/
def Obligations.BufferTransfersComplete : Prop :=
  ∀ (s : State) (c : Side) (t : Transfer), (s.front.ctl = .run ∨ s.front.ctl = .draining) →
    let ch := s.engine.chan c
    let alone (rest : List Transfer) : Prop := ch.transfers = t :: rest ∧
      s.engine.port.inProgress = none ∧ (s.engine.chan c.other).wordWaiting = false
    let port : Port :=
      { s.engine.port with lastWord := if t.moved < t.words then c else s.engine.port.lastWord }
    (∀ o, ch.transferOf? true = some t → s.engine.orderOf? c = some o →
      ∃ (m : List Host.Cell) (e : Engine),
        exec (.bufferCopyComplete c) s = .next (State.settle { s with
          mem := m, engine := e.carryOn s.front c }) ∧
        e.held = s.engine.held.map (fun o' => if o'.slot == o.slot then
          { o'.setEntry c t.pos .done with sectorsDone := min 65535 (o'.sectorsDone + 1) } else o') ∧
        ((e.chan c).buffers.get t.buf).use = .free ∧ e.log = s.engine.log ∧ e.drives = s.engine.drives ∧
        e.timers = s.engine.timers ∧ e.attention = s.engine.attention ∧
        ∀ rest, alone rest →
          m = (List.range (t.words - t.moved)).foldl
            (fun m k => memWriteWord m (t.addr + 2 * (t.moved + k))
              (bufferWord (ch.buffers.get t.buf).data (t.moved + k))) s.mem ∧
          (e.chan c).transfers = rest ∧ e.chan c.other = s.engine.chan c.other ∧ e.port = port) ∧
    (∀ data, ch.transferOf? false = some t →
      let wanted := ch.run.items.any fun it => it.pos == t.pos && it.st == .wanted
      let filled : BySide SectorBuffer := ch.buffers.set t.buf
        { use := if wanted then .ready t.pos 0x35 else .free, data := data }
      (∃ (m : List Host.Cell) (e : Engine),
        exec (.bufferFetchComplete c data) s = .next (State.settle { s with
          mem := m, engine := e.fillBuffers s.front c }) ∧
        (e.chan c).buffers = filled ∧ e.held = s.engine.held ∧ e.log = s.engine.log ∧
        e.drives = s.engine.drives) ∧
      ∀ rest, alone rest →
        exec (.bufferFetchComplete c data) s = .next (State.settle { s with
          engine := Engine.fillBuffers s.front
            { s.engine.setChan c { ch with buffers := filled, transfers := rest } with port := port } c }))

/-- O35 (R4, R6, R9, R17, R19, R24, R26, R86, R98, R154, R159, R165; log 45): what follows a completed
write. A finish's phase write has completed: the DONE bit is set and the notify-pending bit takes the
NOTIFY flag; a finished order leaves the list and the held counts fall, and where a WITHDRAW has finished
it the intake waits for the last count write alone (log 45); a standing order that stays is as it was; a
refusal or an immediate order is recorded in the last-action record; with the last LATE finish of a close
CLOSE is set. DRIVEn, SURVEY_DONE and CONFIG_ERROR are each set in ATTENTION when the write they report
has completed, and nothing else changes. -/
def Obligations.BitsFollowTheirWrites : Prop :=
  (∀ (s s1 : State) (slot : Nat) (notify late : Bool) (how : DoneHow),
    s.await Notice.isDoneBit = some (.doneBit slot notify how late, s1) →
    ∃ (x : Front) (e : Engine),
      exec .doneBitSet s = .next (State.settle { s1 with
        front := x, engine := if late then e.lateDone else e }) ∧
      x = { s1.front with done := x.done, notify := x.notify, intake := x.intake } ∧
      (∀ k < 32, x.done.getLsbD k = (s1.front.done.getLsbD k || decide (k = slot)) ∧
        x.notify.getLsbD k = if k = slot then notify else s1.front.notify.getLsbD k) ∧
      (how = .stays → e = s1.engine ∧ x.intake = s1.front.intake) ∧
      (how = .leaves →
        x.intake = (if s1.front.intake = .finishing slot then .recording else s1.front.intake) ∧
        ∀ o, s1.engine.order? slot = some o → o.finish ≠ none →
          e.held = s1.engine.held.filter (fun o => !(o.slot == slot)) ∧
          e.deskHeld = s1.engine.deskHeld.set o.fields.desk
            (s1.engine.deskHeld.getD o.fields.desk 0 - 1) ∧
          (∀ d, (e.drive d).heldCount =
            (s1.engine.drive d).heldCount - if o.fields.covers d then 1 else 0) ∧
          (s1.front.intake = .finishing slot →
            e.port.queue.getLast?.bind Request.notice = some .lastAction)) ∧
      (∀ w, s1.front.intake = .closing w →
        (how = .refused → x.intake = .recording ∧ e = s1.engine.writeLastAction x w .refused) ∧
        (how = .immediate → x.intake = .recording ∧ e = s1.engine.writeLastAction x w .taken))) ∧
  (∀ (s s1 : State) (n : Notice) (d : Drive), s.await (fun n => n == .attention d) = some (n, s1) →
    exec (.driveAttention d) s = .next { s1 with engine := { s1.engine with
      attention := s1.engine.attention ||| BitVec.twoPow 10 d.number } }) ∧
  (∀ (s s1 : State) (n : Notice), s.await (fun n => n == .surveyDone) = some (n, s1) →
    exec .surveyDone s = .next { s1 with engine := { s1.engine with
      attention := s1.engine.attention ||| 0x010#10 } }) ∧
  (∀ (s s1 : State) (n : Notice), s.await (fun n => n == .configError) = some (n, s1) →
    exec .configError s = .next { s1 with engine := { s1.engine with
      attention := s1.engine.attention ||| 0x100#10 } }) ∧
  ∀ (e : Engine) (n : Nat) (rest : List Nat), e.closes = n :: rest →
    (2 ≤ n → e.lateDone = { e with closes := (n - 1) :: rest }) ∧
    (n = 1 → e.lateDone = { e with closes := rest, attention := e.attention ||| 0x020#10 })

/-! ### The timebase -/

/-- O36 (R40, R41, R115, R119, R157): an age tick in RUN or DRAINING: every QUEUED or BOUND-WAIT order is
one tick older, up to 255, and no other; every running unload timer counts down; in RUN the survey step
that waits counts up to 10. In the other states nothing happens. A head unload timer has run out: a busy
channel keeps the unload pending; a free one drives the drive's select line with HLD down; a channel with
that drive selected for a survey step drops HLD at once and the head is unloaded. An unload touch ends:
the drive's record shows the head unloaded, and what was given to the channel meanwhile begins. Entering
CONFIG or in STARTING the record's write is left to the others, and the channel goes on to its next touch,
or to STOPPED. -/
def Obligations.AgeTicksAndHeadUnloads : Prop :=
  (∀ s : State,
    (s.front.ctl = .run ∨ s.front.ctl = .draining → ∃ e : Engine,
      exec .ageTick s = .next { s with engine := e } ∧
      e = { s.engine with held := e.held, timers := e.timers, survey := e.survey } ∧
      e.held = s.engine.held.map (fun o =>
        { o with age := if o.state = .queued ∨ o.state = .boundWait then min 255 (o.age + 1) else o.age }) ∧
      (∀ d n, s.engine.timers.drive d = .running n → e.timers.drive d = .running (n - 1)) ∧
      (∀ d, (∀ n, s.engine.timers.drive d ≠ .running n) → e.timers.drive d = s.engine.timers.drive d) ∧
      (s.front.ctl = .run → s.engine.survey.next ≠ none →
        s.engine.survey.step = none →
        e.survey = { s.engine.survey with waiting := min 10 (s.engine.survey.waiting + 1) }) ∧
      (s.front.ctl = .draining ∨ s.engine.survey.next = none ∨
        s.engine.survey.step ≠ none →
        e.survey = s.engine.survey)) ∧
    (s.front.ctl ≠ .run → s.front.ctl ≠ .draining → exec .ageTick s = .next s)) ∧
  (∀ (s : State) (d : Drive), (s.front.ctl = .run ∨ s.front.ctl = .draining) →
    s.engine.timers.drive d = .running 0 →
    let ch := s.engine.chan d.side
    let surveyed : Prop := ch.state = .surveyStep ∧ ch.selected = some d.pair
    (surveyed → exec (.headUnloadExpiry d) s = .next (State.settle { s with
      engine := ((s.engine.setChan d.side { ch with headLoad := false }).setTimer d .stopped).updDrive
        s.front d fun k => { k with loaded := false } })) ∧
    (¬surveyed → ch.free = true → ch.touch = none →
      exec (.headUnloadExpiry d) s = .next (State.settle { s with
        engine := (s.engine.setChan d.side
          { ch with touch := some { pair := d.pair, first := false }, headLoad := false }).setTimer d
          .stopped })) ∧
    (¬surveyed → (ch.free = false ∨ ch.touch ≠ none) →
      exec (.headUnloadExpiry d) s = .next (State.settle { s with
        engine := s.engine.setTimer d .pending }))) ∧
  ∀ (s : State) (c : Side) (t : Touch), (s.engine.chan c).touch = some t →
    let e := s.engine.setChan c { s.engine.chan c with touch := none }
    let d : Drive := ⟨c, t.pair⟩
    (s.front.ctl = .run ∨ s.front.ctl = .draining →
      ((s.engine.chan c).deferred = none → exec (.unloadTouchEnd c) s = .next (State.settle { s with
        engine := e.updDrive s.front d fun k => { k with loaded := false } })) ∧
      (∀ b, (s.engine.chan c).deferred = some b → (s.engine.chan c).stopping = false →
        exec (.unloadTouchEnd c) s = .next (State.settle { s with
          engine := ((e.updDrive s.front d fun k => { k with loaded := false }).updChan c fun ch =>
            { ch with deferred := none }).start s.front c b }))) ∧
    (s.front.ctl = .config ∨ s.front.ctl = .starting →
      exec (.unloadTouchEnd c) s = .next (State.tryStart { s with
        engine := { e.changeDrive s.front d (fun k => { k with loaded := false }) with
          report := s.engine.report.setDrive d true }.configChannels s.front }))

/-- O37 (R80, R81, R82, R83, R84, R85; log 58): a round tick: the counter advances, 63 wrapping to 0, and
is written into the header. In RUN the due check follows: the orders that fall due go to the tail
together, in their order, QUEUED with age 0, mark and room note cleared and nothing done, and the phase
QUEUED is written for each; an order that misses the round has it counted. In DRAINING nothing is checked;
in the other states there is no tick. An order falls due in a round when it is a standing order, waiting
for a round, whose finish has not been decided, whose round value agrees with the round in every bit of
its mask, and that is posted REPEAT or carries the changed mark; one that waits or runs from an earlier
round misses it. That the phase writes of the orders that fall due together are issued in post order is
the model's choice (log 58). -/
def Obligations.RoundTickMakesOrdersDue : Prop :=
  (∀ s : State,
    let round := s.front.round + 1
    let header : Engine := s.engine.issue .headerWrite
      [{ addr := s.front.areaBase.toNat * 256 + 0x10, data := some (round.setWidth 16) }] none
    (s.front.ctl = .draining → exec .roundTick s = .next (State.settle
      { s with front := { s.front with round := round }, engine := header })) ∧
    (s.front.ctl = .run → ∃ e : Engine,
      exec .roundTick s = .next (State.settle
        { s with front := { s.front with round := round }, engine := e }) ∧
      (∃ due : List Order,
        e.held = (s.engine.held.filter fun o => !(o.fallsDue round)).map (fun o =>
          { o with missedRounds :=
              if o.misses round then min 255 (o.missedRounds + 1) else o.missedRounds }) ++ due ∧
        due.map Order.key = (s.engine.held.filter fun o => o.fallsDue round).map Order.key ∧
        (∀ o ∈ due, o.state = .queued ∧ o.age = 0 ∧ o.changed = false ∧ o.roomNote = false ∧
          o.stale = false ∧ o.pendingCode = none ∧ o.sectorsDone = 0 ∧ o.retries = 0 ∧
          ∀ c i, o.entry c i = .notBegun) ∧
        e.port.queue = header.port.queue ++ due.map fun o =>
          { kind := .slotWrite,
            words := [{ addr := s.front.areaBase.toNat * 256 + (0x240 + 32 * o.slot), data := some 2 }],
            notice := none }) ∧
      e = { s.engine with held := e.held, port := e.port }) ∧
    (s.front.ctl ≠ .run → s.front.ctl ≠ .draining → exec .roundTick s = .next s)) ∧
  ∀ (o : Order) (round : BitVec 6),
    let tested : Prop := o.fields.standing = true ∧ o.finish = none ∧
      (∀ k < 6, o.fields.roundMask.getLsbD k = true →
        round.getLsbD k = o.fields.roundValue.getLsbD k) ∧
      (o.fields.changedOnly = true → o.changed = true)
    (o.fallsDue round = true ↔ tested ∧ o.state = .waitingRound) ∧
    (o.misses round = true ↔ tested ∧ o.state ≠ .waitingRound)

/-- O38 (R94, R97, R98, R99; log 43): a count while the clock runs with more than one second left: the
remaining time falls by 1, the phase is worked out, the running flag stays, and the edition fields are
written. Without the running flag, with no time left, or outside RUN and DRAINING there is no count. The
count from 1 to 0 is the close: the phase is CLOSED, the running flag clear, and every waiting DROP order
finishes LATE; with none CLOSE is set at once. A count from 1 to 0 that falls together with an entry to
FAULT from RUN or DRAINING is taken while the fault record is still to be written, and finds the roster
stopped: CLOSE is set, no order finishes, and the header write is not made; that is the model's choice
(log 43). -/
def Obligations.EditionCountsAndCloses : Prop :=
  (∀ (s : State) (n : Nat),
    (s.front.ctl = .run ∨ s.front.ctl = .draining → s.front.clock.running = true →
      s.front.clock.remaining = n + 2 →
      let phase : Phase := if s.front.clock.window < n + 1 then .far else .near
      let base := s.front.areaBase.toNat * 256
      let fields : List Access :=
        [{ addr := base + 0x12, data := some (BitVec.ofNat 16 (n + 1)) },
         { addr := base + 0x14, data := some (lohi phase.code 1) }]
      exec .editionCount s = .next (State.settle { s with
        front := { s.front with clock := { s.front.clock with remaining := n + 1, phase := phase } },
        engine := s.engine.issue .headerWrite fields none })) ∧
    (s.front.clock.running = false ∨ s.front.clock.remaining = 0 ∨
      (s.front.ctl ≠ .run ∧ s.front.ctl ≠ .draining ∧ s.front.ctl ≠ .fault) ∨
      (s.front.ctl = .fault ∧
        (s.front.faultActive = false ∨ s.front.clock.remaining ≠ 1 ∨ s.engine.port.queue = [])) →
      exec .editionCount s = .next s)) ∧
  ∀ s : State, s.HeldOnce → s.front.clock.running = true → s.front.clock.remaining = 1 →
    let clock : Clock := { s.front.clock with remaining := 0, running := false, phase := .closed }
    let base := s.front.areaBase.toNat * 256
    let written : Engine := s.engine.issue .headerWrite
      [{ addr := base + 0x12, data := some 0 }, { addr := base + 0x14, data := some 3 }] none
    let late (o : Order) : Prop := o.fields.drop = true ∧ o.finish = none ∧ o.state ≠ .running
    ((s.front.ctl = .run ∨ s.front.ctl = .draining) → (∀ o ∈ s.engine.held, ¬late o) →
      exec .editionCount s = .next (State.settle { s with
        front := { s.front with clock := clock },
        engine := { written with attention := s.engine.attention ||| 0x020#10 } })) ∧
    ((s.front.ctl = .run ∨ s.front.ctl = .draining) →
      ∃ t, exec .editionCount s = .next t ∧ t.front.clock = clock ∧ t.mem = s.mem ∧
      ∀ o ∈ s.engine.held, late o → ∃ o' ∈ t.engine.held, o'.slot = o.slot ∧ o'.finish = some .late) ∧
    (s.front.ctl = .fault → s.front.faultActive = true → s.engine.port.queue ≠ [] →
      exec .editionCount s = .next { s with
        front := { s.front with clock := clock },
        engine := { s.engine with attention := s.engine.attention ||| 0x020#10 } })

/-- O39 (R31, R48, R52, R115, R145, R157, R158, R159; log 2, log 31, log 50): when the waiting count has
reached 10, SURVEY_WAIT_EXPIRY gives a channel that falls free its step before it chooses; below 10 the
channel chooses first and takes the step only when it has nothing to claim. A bound order is taken over
before either. A stage of a survey step times out: the step's waiting is over, and it ends once three
ready samples have been taken. At its end the drive is deselected, its survey round is the round counter,
and the channel is IDLE; the unit moves on, and after the last step of its pass SURVEY_DONE follows the
drive's status record, but for a step whose survey has been ended, which leaves the unit as it is. The
model's choices are that the count is looked at when a channel falls free (log 31), a claimer answered
taken included (log 50), and that a timeout with no step in hand does nothing (log 2). -/
def Obligations.SurveyStepsGoFirstAndEnd : Prop :=
  (∀ (s : State) (c : Side) (d : Drive),
    s.front.ctl = .run → (s.engine.chan c).claim = none → s.engine.survey.step = none →
    s.engine.survey.next = some d → d.side = c →
    exec .surveyWaitExpiry s = .next s.settle ∧
    (∀ o, s.engine.boundFor? c = some o →
      s.engine.takeNext s.front c = (s.engine.takeover s.front c o, true)) ∧
    (s.engine.boundFor? c = none → 10 ≤ s.engine.survey.waiting →
      s.engine.takeNext s.front c = (s.engine.takeStep s.front c d, true)) ∧
    (s.engine.boundFor? c = none → s.engine.survey.waiting < 10 →
      s.engine.takeNext s.front c =
        if ((s.engine.choose s.front c).chan c).claim = none
        then ((s.engine.choose s.front c).takeStep s.front c d, true)
        else (s.engine.choose s.front c, false))) ∧
  ∀ (s : State) (c : Side), (s.front.ctl = .run ∨ s.front.ctl = .draining) →
    (∀ st n, (s.engine.chan c).act = .surveying st n →
      let e := s.engine.setChan c { s.engine.chan c with act := .surveying .over n }
      (n < 3 → exec (.surveyStepTimeout c) s = .next (State.settle { s with engine := e })) ∧
      (3 ≤ n → exec (.surveyStepTimeout c) s = .next (State.settle
        { s with engine := e.endSurveyStep s.front c }))) ∧
    ((∀ st n, (s.engine.chan c).act ≠ .surveying st n) → exec (.surveyStepTimeout c) s = .next s.settle) ∧
    ∀ d, d.side = c → (s.engine.chan c).selected = some d.pair →
      let v := s.engine.survey
      let ended : Prop := v.orphans.get c = some d
      let inHand : Prop := v.orphans.get c = none ∧ v.step = some d
      ended ∨ inHand →
      let e := s.engine.endSurveyStep s.front c
      (e.chan c).state = .idle ∧ (e.chan c).selected = none ∧ (e.chan c).order = none ∧
      (e.drive d).surveyRound = some s.front.round ∧ (e.drive d).state = (s.engine.drive d).state ∧
      (∀ d', d' ≠ d → e.drive d' = s.engine.drive d') ∧
      e.timers = s.engine.timers ∧ e.held = s.engine.held ∧ e.log = s.engine.log ∧
      (ended → e.survey = { v with orphans := v.orphans.set c none }) ∧
      (inHand → e.survey = v.stepEnded d ∧ e.survey.step = none ∧
        (v.afterStep d = none →
          ∃ r ∈ e.port.queue, r.kind = .statusWrite ∧ r.notice = some .surveyDone))

/-! ### Claims -/

/-- O40 (R32, R36, R48, R49, R50, R54, R63, R64): the roster takes a channel's claim. In RUN, with the
claimer still free and the order eligible for it, the order is granted: a plan of one side runs on the
claimer alone; a plan of two sides runs on both, or, with the other channel at work, waits for it.
Otherwise the claim is answered taken and the order is as it was, but for its room note: an order that
passes every test but the room test, with its note clear, has the note set and SPLIT_ROOM with it, at a
claim and at a choice; with the note set nothing is done. The room test asks for as many free entries as a
PAIR WRITE, FORMAT, RETIRE or CHECK on a bound, ATTACHED pair has sectors. A claim names an order that is
held: when that order leaves the list, the claims in flight for it find it no longer held, whatever order
its slot is given to since. -/
def Obligations.ClaimIsGrantedOrTaken : Prop :=
  (∀ (s : State) (c : Side) (cl : Claim), (s.front.ctl = .run ∨ s.front.ctl = .draining) →
    (s.engine.chan c).claim = some cl →
    let x := s.front
    let e := s.engine.setChan c { s.engine.chan c with claim := none }
    (x.ctl = .draining ∨ (s.engine.chan c).free = false ∨ cl.held = false ∨
        s.engine.order? cl.slot = none →
      exec (.claim c) s = .next (State.settle { s with engine := e })) ∧
    (x.ctl = .run → (s.engine.chan c).free = true → cl.held = true → ∀ o, s.engine.order? cl.slot = some o →
      (e.eligible x o c = false →
        exec (.claim c) s = .next (State.settle { s with engine := e.noteRoom x c cl.slot })) ∧
      (e.eligible x o c = true →
        ((e.planOf o).a && (e.planOf o).b) = false →
        exec (.claim c) s = .next (State.settle { s with engine := e.grantOne x c o })) ∧
      (e.eligible x o c = true → ((e.planOf o).a && (e.planOf o).b) = true →
        exec (.claim c) s = .next (State.settle { s with engine := e.grantTwo x c o })))) ∧
  (∀ (x : Front) (e : Engine) (c : Side) (slot : Nat) (o : Order), e.order? slot = some o → o.finish ≠ none →
    ((e.leaveList x slot).order? slot = none) ∧
    ((e.chan c).claim = none → ((e.leaveList x slot).chan c).claim = none) ∧
    ∀ cl, (e.chan c).claim = some cl →
      ((e.leaveList x slot).chan c).claim =
        some { cl with held := cl.held && !(cl.slot == slot) }) ∧
  ∀ (x : Front) (e : Engine) (c : Side),
    let short (o : Order) : Bool := e.passesButRoom x o c && !e.hasRoom x o && !o.roomNote
    (∀ o, (e.hasRoom x o = true ↔ e.roomNeed x o ≤ 32 - e.log.length - e.reserved) ∧
      e.roomNeed x o =
        if o.fields.pairCopy = true ∧ (o.kind.writes = true ∨ o.kind = .check) ∧
            (e.pairs.get o.pair).bound = true ∧ (e.pairs.get o.pair).mode = .attached
        then o.sectorCount x else 0) ∧
    (∀ slot o, e.order? slot = some o →
      (short o = true → e.noteRoom x c slot = { e with
        held := e.held.map fun o' => if o'.slot == slot then { o' with roomNote := true } else o',
        attention := e.attention ||| 0x040#10 }) ∧
      (short o = false → e.noteRoom x c slot = e)) ∧
    ((e.held.map Order.slot).Nodup →
      (e.choose x c).held =
        e.held.map (fun o => if short o then { o with roomNote := true } else o) ∧
      (e.choose x c).attention =
        if e.held.any short then e.attention ||| 0x040#10 else e.attention)

/-- O41 (R34, R49, R50, R52, R58, R63, R64, R65, R75, R104, R114; log 7, log 64): what a grant and a
takeover do before the channels begin. On one side the order is RUNNING under that plan, the claimer is
bound to it, and the phase RUNNING is written. On two sides with the other channel free it is RUNNING
under both, both channels are bound, and the phase RUNNING is written; a MEND has its turn fixed first,
and one that finds no entry of its ATTACHED pair finishes OK. With the other channel at work the order is
BOUND-WAIT, the claimer waits for its partner, and no phase is written, only the reserved total where room
is taken. A takeover by the partner leaves the order RUNNING, with no waiter, both channels bound and the
phase RUNNING written; the waiting side counts as served where its selection was good, a failure it holds
fails it, and one that holds at the order's first track starts there, or is over where no head is loaded.
One still positioning is POSITIONING and finishes the parts that remain, or seeks from where it stands
where its first track is another; that a wait in hand is then given up, and a step in hand goes on to the
new target, is the model's choice (log 64). A grant takes the order's reservation, clears its room note,
and a run on an ATTACHED pair begins with no sector resolved. A MEND's turn on an ATTACHED pair is the
track of the pair's oldest entry with every entry of the pair on it; on a DETACHED pair it is its copy
cursor's track, the first one without a cursor, with every sector of it read on the kept side. That the
phase write follows the reserved total's is the model's choice (log 7). -/
def Obligations.GrantsAndTakeoversBindTheOrder : Prop :=
  ∀ (x : Front) (e : Engine) (c : Side) (o : Order), e.order? o.slot = some o →
    let attached : Prop := (e.pairs.get o.pair).bound = true ∧ (e.pairs.get o.pair).mode = .attached
    let need := e.roomNeed x o
    let granted (st : RosterState) (waiter : Option Side) (plan : BySide Bool) : Order :=
      { o with
        state := st, waiter := waiter, plan := plan, roomNote := false,
        mirrored := o.fields.pairCopy && o.kind != .mend && e.attached o,
        resolved := List.replicate (o.sectorCount x) false,
        reservation := if need = 0 then o.reservation else need }
    let running : Request :=
      { kind := .slotWrite,
        words := [{ addr := x.areaBase.toNat * 256 + (0x240 + 32 * o.slot), data := some 3 }], notice := none }
    (e.attached o = true ↔ attached) ∧
    (∃ e' : Engine, e.grantOne x c o = (e'.leaveOut x o.slot c.other).startOrDefer x c .positioning ∧
      (e'.chan c).order = some o.slot ∧ (e'.chan c).claim = none ∧ e'.chan c.other = e.chan c.other ∧
      e'.order? o.slot = some (granted .running none ((BySide.both false).set c true)) ∧
      e'.reserved = e.reserved + need ∧ e'.port.queue.getLast? = some running) ∧
    ((e.chan c.other).free = true → ∃ e' : Engine,
      (o.kind ≠ .mend →
        e.grantTwo x c o = (e'.startIfHeld x c o.slot).startIfHeld x c.other o.slot) ∧
      (o.kind = .mend → ∀ t, e.fixTurn x o = some t →
        e.grantTwo x c o = ((e'.setTurn o t).startIfHeld x c o.slot).startIfHeld x c.other o.slot) ∧
      (o.kind = .mend → e.fixTurn x o = none →
        e.grantTwo x c o = ((e'.unbind c).unbind c.other).decideFinish x o.slot .ok false) ∧
      (∀ c', (e'.chan c').order = some o.slot ∧ (e'.chan c').claim = none) ∧
      e'.order? o.slot = some (granted .running none (BySide.both true)) ∧
      e'.reserved = e.reserved + need ∧ e'.port.queue.getLast? = some running) ∧
    ((e.chan c.other).free = false →
      ∃ e' : Engine, e.grantTwo x c o = e'.startOrDefer x c .partnerWait ∧
        (e'.chan c).order = some o.slot ∧ (e'.chan c).claim = none ∧ e'.chan c.other = e.chan c.other ∧
        e'.order? o.slot = some (granted .boundWait (some c) (BySide.both true)) ∧
        e'.reserved = e.reserved + need ∧
        e'.port = { e.port with
          queue := e.port.queue ++
            (if need = 0 then [] else
              [{ kind := .headerWrite,
                 words := [{ addr := x.areaBase.toNat * 256 + 0x22,
                             data := some (BitVec.ofNat 16 (e.reserved + need)) }],
                 notice := none }]) }) ∧
    (∀ j : Side, (e.chan j.other).order = some o.slot →
      ∃ e' : Engine,
        e'.order? o.slot = some { o with state := .running, waiter := none } ∧
        (∀ c', (e'.chan c').order = some o.slot) ∧ (e'.chan j).claim = none ∧ e'.chan j.other = e.chan j.other ∧
        e'.reserved = e.reserved ∧ e'.port = { e.port with queue := e.port.queue ++ [running] } ∧
        let joined (e : Engine) : Engine :=
          ((e.serveWaiter j.other o.slot).startOrDefer x j .positioning).joinWaiter x j.other o.slot
        (o.kind ≠ .mend → e.takeover x j o = joined e') ∧
        (o.kind = .mend → ∀ t, e.fixTurn x o = some t → e.takeover x j o = joined (e'.setTurn o t)) ∧
        (o.kind = .mend → e.fixTurn x o = none →
          e.takeover x j o = ((e'.unbind j).decideFinish x o.slot .ok false).freeWaiter x j.other o.slot)) ∧
    (∀ w : Side, (e.serveWaiter w o.slot).order? o.slot = some
      { o with served := if (e.chan w).selectedWell then o.served.set w true else o.served }) ∧
    (∀ w : Side, (e.chan w).order = some o.slot → (e.chan w).deferred = none →
      (∀ code, (e.chan w).heldFailure = some code → e.joinWaiter x w o.slot = e.failSide x w code) ∧
      ((e.chan w).heldFailure = none → (e.chan w).act = .holding → (e.chan w).stopping = false →
        (e.chan w).positioning.target = o.firstTrack x / (o.geometry x).surfaces →
        (e.chan w).positioning.surface = o.firstTrack x % (o.geometry x).surfaces →
        e.joinWaiter x w o.slot =
          if o.kind.loadsHead then e.startSide x w o else e.release x w) ∧
      ((e.chan w).heldFailure = none → (e.chan w).stopping = false →
        let target := o.firstTrack x / (o.geometry x).surfaces
        let surface := o.firstTrack x % (o.geometry x).surfaces
        let pos := (e.chan w).positioning
        let stands : Prop := pos.target = target ∧ pos.surface = surface
        let waits : Prop := (e.chan w).act = .settling ∨ (e.chan w).act = .loading ∨
          ∃ n, (e.chan w).act = .confirming n
        let moved := e.enter x w .positioning
        let goesOn (p : Positioning) : Engine :=
          moved.setChan w { e.chan w with state := .positioning, positioning := p }
        (waits → stands → e.joinWaiter x w o.slot = goesOn { pos with why := .start }) ∧
        (waits ∨ (e.chan w).act = .holding → ¬stands →
          e.joinWaiter x w o.slot = moved.startPositioning x w .start target surface false) ∧
        ((∃ home, (e.chan w).act = .stepping home) → e.joinWaiter x w o.slot =
          goesOn { pos with why := .start, target := target, surface := surface }))) ∧
    let r := x.record o.fields.drive
    let track (l : LogEntry) : Nat := l.place.cylinder * r.surfaces + l.place.surface
    let ours := e.log.filter fun l => l.pair == o.pair
    (attached → (ours = [] → e.fixTurn x o = none) ∧
      ∀ l, ours.head? = some l → e.fixTurn x o = some
        { track := track l,
          set := (ours.filter fun m => track m == track l).map fun m => (m.place.sector, m.good) }) ∧
    (¬attached → e.fixTurn x o = some
      { track := o.cursor.getD 0,
        set := (List.range r.sectors).map fun k => (r.firstSector + k, (e.pairs.get o.pair).kept) })

/-! ### Positioning -/

/-- O42 (R104, R107, R108, R109, R111, R115, R127, R144, R145, R146, R152; log 24, log 42, log 52): how a
side's run begins. Its channel is POSITIONING and selects the order's drive: HLD shows the recorded head
state, the unload timer stops, and the lines are sampled. A change sense found active, or a NOT_READY
drive found ready, is a medium change: the side is released, and an order that runs is marked with it.
Otherwise a drive that the sample leaves not READY fails the side, with OFF_SPEED or NOT_READY; on a READY
one the side is served, and positioning to its first track begins, unless a stop has been asked.
Positioning recalibrates where it is forced, the cylinder is not known or the order is a RECALIBRATE, and
then, or otherwise, seeks: with track 0 not found a step outward is made, on the target cylinder nothing,
else a step towards it. When positioning has ended the channel enters TRACK_PASS; there, before the first
transfer, a side that writes fails on a write-protected drive, then a one-sided diskette fails surface 1,
then another volume than the expected one fails; else the first track is taken in hand. The model's
choices are that write protect seen at the selection waits for that test (log 24), that a side stopped
before it begins counts as served after its own good selection (log 42), and that an order stopped at its
own selection finishes with this release (log 52). -/
def Obligations.RunsBegin : Prop :=
  (∀ (x : Front) (e : Engine) (c : Side) (o : Order), e.orderOf? c = some o → o.state = .running → o.finish = none →
    let d : Drive := ⟨c, o.pair⟩
    let k := e.drive d
    let l := x.pins.drive d
    let r := o.geometry x
    let taken : Prop := k.held ≠ some l.ready ∧ (x.record d).debounce = false
    let changed : Prop := ((x.record d).aux = .changeSense ∧ l.aux = true) ∨
      (taken ∧ l.ready = true ∧ k.state = .notReady)
    let sampled (st : DriveState) : Prop :=
      (¬taken → st = k.state) ∧
      (taken → l.ready = true → st = if k.state = .unknown then .ready else k.state) ∧
      (taken → l.ready = false → st = if k.state = .unconfigured then .unconfigured else .notReady)
    let selected (e' : Engine) : Prop :=
      (e'.chan c).state = .positioning ∧ (e'.chan c).selected = some o.pair ∧
      (e'.chan c).lastSelected = some o.pair ∧ (e'.chan c).headLoad = k.loaded ∧
      (e'.chan c).writeGate = false ∧ e'.timers.drive d = .stopped ∧
      (e'.drive d).writeProtected = l.wprt ∧ (e'.drive d).track0 = l.trk0
    (changed → ∃ e' : Engine, e.beginPositioning x c = (e'.setAct c .none).release x c ∧ selected e' ∧
      (e'.drive d).generation ≠ k.generation ∧
      (o.fields.covers d = true → o.generation.get c = some k.generation →
        ∃ o', e'.order? o.slot = some o' ∧ o'.changedMedium = true ∧ o'.served = o.served)) ∧
    (¬changed → ∀ st, sampled st →
      (st ≠ .ready → ∃ e' : Engine, selected e' ∧ e'.held = e.held ∧
        e.beginPositioning x c = e'.failSide x c (if st = .offSpeed then .offSpeed else .notReady)) ∧
      (st = .ready → ∃ e' : Engine, selected e' ∧ (e'.chan c).selectedWell = true ∧
        (e'.drive d).state = .ready ∧ (e'.drive d).generation = k.generation ∧
        e'.order? o.slot = some { o with served := o.served.set c true } ∧
        e.beginPositioning x c =
          if (e.chan c).stopping then (e'.setAct c .none).release x c
          else e'.startPositioning x c .start (o.firstTrack x / r.surfaces) (o.firstTrack x % r.surfaces)
            false))) ∧
  (∀ (x : Front) (e : Engine) (c : Side) (p : PairId) (why : PosWhy) (target surface : Nat) (forced : Bool),
    (e.chan c).selected = some p →
    let d : Drive := ⟨c, p⟩
    let pos : Positioning :=
      { why := why, target := target, surface := surface, steps := 0, stepped := false, again := false }
    let begun : Channel := { e.chan c with
      act := .ending, positioning := pos, run := { (e.chan c).run with lastId := none } }
    let home : Prop := forced = true ∨ (e.drive d).cylinder = none ∨
      ∃ o, e.orderOf? c = some o ∧ o.kind = .recalibrate
    let e' := e.startPositioning x c why target surface forced
    (home → (x.pins.drive d).trk0 = false → (e'.drive d).cylinder = none ∧ (e'.drive d).track0 = false ∧
      e'.chan c = { begun with
        act := .stepping true, dirInward := false,
        positioning := { pos with steps := 1, stepped := true } }) ∧
    (home → (x.pins.drive d).trk0 = true → 0 < target →
      (e'.drive d).cylinder = some 0 ∧ (e'.drive d).track0 = true ∧
      e'.chan c = { begun with
        act := .stepping false, dirInward := true, positioning := { pos with stepped := true } }) ∧
    (home → (x.pins.drive d).trk0 = true → target = 0 → ∃ e1 : Engine, e' = e1.settled x c ∧
      (e1.drive d).cylinder = some 0 ∧ e1.chan c = { begun with dirInward := false }) ∧
    ∀ v, ¬home → (e.drive d).cylinder = some v →
      (v ≠ target → e' = e.setChan c { begun with
        act := .stepping false, dirInward := decide (v < target),
        positioning := { pos with stepped := true } }) ∧
      (v = target → e' = (e.setChan c begun).settled x c)) ∧
  ∀ (x : Front) (e : Engine) (c : Side) (o : Order),
    let d : Drive := ⟨c, o.pair⟩
    let t := o.firstTrack x
    let writes : Prop := o.kind = .write ∨ o.kind = .format ∨ o.kind = .retire ∨
      (o.kind = .mend ∧ ∃ turn, o.turn = some turn ∧ ∃ q ∈ turn.set, q.2 ≠ c)
    let oneSided : Prop := t % (o.geometry x).surfaces = 1 ∧ (x.record d).aux = .twoSidedSense ∧
      (e.drive d).twoSided = false
    let tested : Prop := o.kind = .read ∨ o.kind = .write ∨ o.kind = .check ∨ o.kind = .retire
    let wrong (v : Byte) : Prop := tested ∧ o.fields.volume ≠ 0 ∧ o.fields.volume ≠ v
    let passing := e.enter x c .trackPass
    let entered (volumeTested : Bool) : Engine :=
      ((passing.setChan c { e.chan c with
        state := .trackPass, run := { (e.chan c).run with volumeTested := volumeTested } }).enterTrack
        x c o t).carryOn x c
    passing.chan c = { e.chan c with state := .trackPass } ∧
    (writes → (e.drive d).writeProtected = true → e.startSide x c o = passing.failSide x c .writeProtected) ∧
    ((writes → (e.drive d).writeProtected = false) →
      (oneSided → e.startSide x c o = passing.failSide x c .sideAbsent) ∧
      (¬oneSided →
        (∀ v, (e.chan c).run.firstId = some v →
          (wrong v → e.startSide x c o = passing.failSide x c .wrongVolume) ∧
          (¬wrong v → e.startSide x c o = entered true)) ∧
        ((e.chan c).run.firstId = none →
          (tested → e.startSide x c o = entered false) ∧ (¬tested → e.startSide x c o = entered true))))

/-- O43 (R108, R109, R116; log 10): the step time ends. In a seek the drive line unit is handed the next
cylinder; the channel steps on, settles at the target, or, asked to stop, releases its order. In a
recalibrate the track-0 line is sampled: inactive, a further step is given, and after 85 steps the side
fails with NO_TRACK0; active, cylinder 0 is known, and the channel settles, or seeks its target. That the
sampled track-0 level stays on the pin till the next sample is the model's choice (log 10). -/
def Obligations.StepTimeEndMovesTheHead : Prop :=
  ∀ (s : State) (c : Side) (trk0 : Bool) (p : PairId), (s.front.ctl = .run ∨ s.front.ctl = .draining) →
    (s.engine.chan c).selected = some p →
    let d : Drive := ⟨c, p⟩
    let ch := s.engine.chan c
    let pos := ch.positioning
    let x : Front :=
      { s.front with pins := s.front.pins.setDrive d { s.front.pins.drive d with trk0 := trk0 } }
    let left (e : Engine) : State := State.settle { s with front := x, engine := e }
    (∀ v, ch.act = .stepping false → (s.engine.drive d).cylinder = some v →
      let v' := if ch.dirInward then v + 1 else v - 1
      let e := s.engine.changeDrive x d fun k => { k with cylinder := some v' }
      (ch.stopping = false → v' ≠ pos.target →
        exec (.stepTimeEnd c trk0) s = .next (left (e.setChan c
          { ch with dirInward := decide (v' < pos.target), positioning := { pos with stepped := true } }))) ∧
      (ch.stopping = false → v' = pos.target → pos.stepped = true →
        exec (.stepTimeEnd c trk0) s = .next (left (e.setChan c { ch with act := .settling }))) ∧
      (ch.stopping = true → ch.touch = none → (∀ t ∈ ch.transfers, t.toHost = false) →
        exec (.stepTimeEnd c trk0) s = .next (left ((e.setChan c { ch with act := .none }).release x c)))) ∧
    (ch.act = .stepping true → ch.stopping = false →
      let e := s.engine.changeDrive x d fun k => { k with track0 := trk0 }
      let found := e.updDrive x d fun k => { k with cylinder := some 0 }
      (trk0 = false → pos.steps < 85 →
        exec (.stepTimeEnd c trk0) s = .next (left (e.setChan c
          { ch with positioning := { pos with steps := pos.steps + 1 } }))) ∧
      (trk0 = false → 85 ≤ pos.steps →
        exec (.stepTimeEnd c trk0) s = .next (left
          ((e.setChan c { ch with act := .none }).failPositioning x c .noTrack0))) ∧
      (trk0 = true → pos.target = 0 → pos.stepped = true →
        exec (.stepTimeEnd c trk0) s = .next (left (found.setChan c { ch with act := .settling }))) ∧
      (trk0 = true → 0 < pos.target →
        exec (.stepTimeEnd c trk0) s = .next (left (found.setChan c
          { ch with act := .stepping false, dirInward := true,
                    positioning := { pos with stepped := true } }))))

/-- O44 (R109 to R113, R126, R127; log 40, log 59): the settle time ends: a kind that loads the head
confirms the cylinder, after raising HLD and the head load time where the head is unloaded; a SEEK or
RECALIBRATE releases its order, or holds in early positioning. The head load time ends: the head counts as
loaded and the confirm begins. In the confirm the first ID field read with a good check word decides: its
volume goes to the drive's record and its sector marks the place on the track; where its cylinder is the
target, its volume is kept as the side's first, but for a recovery, and the positioning is over; where it
differs, the drive recalibrates and seeks once more, and the second time the cylinder is not known and the
side fails with SEEK_ERROR. The model's choices are that a settle follows that second recalibrate only
when a step was taken (log 40), and that a SEEK or RECALIBRATE that holds leaves SSEL as it was (log 59).
-/
def Obligations.SettleAndHeadLoadGoOn : Prop :=
  ∀ (s : State) (c : Side) (p : PairId) (o : Order), (s.front.ctl = .run ∨ s.front.ctl = .draining) →
    (s.engine.chan c).selected = some p → s.engine.orderOf? c = some o →
    let d : Drive := ⟨c, p⟩
    let ch := s.engine.chan c
    let confirm : Channel := { ch with surfaceOne := ch.positioning.surface == 1, act := .confirming 0 }
    let left (e : Engine) : State := State.settle { s with engine := e }
    (ch.act = .settling →
      (o.kind.loadsHead = true → (s.engine.drive d).loaded = true →
        exec (.settleEnd c) s = .next (left (s.engine.setChan c confirm))) ∧
      (o.kind.loadsHead = true → (s.engine.drive d).loaded = false →
        exec (.settleEnd c) s = .next (left
          (s.engine.setChan c { ch with headLoad := true, act := .loading }))) ∧
      (o.kind.loadsHead = false → ch.positioning.why = .early →
        exec (.settleEnd c) s = .next (left (s.engine.setChan c { ch with act := .holding }))) ∧
      (o.kind.loadsHead = false → ch.positioning.why ≠ .early →
        exec (.settleEnd c) s = .next (left (s.engine.release s.front c)))) ∧
    (ch.act = .loading →
      exec (.headLoadEnd c) s = .next (left
        ((s.engine.updDrive s.front d fun k => { k with loaded := true }).setChan c confirm))) ∧
    (∀ n (f : FieldRead) (id : IdRead), ch.act = .confirming n → ch.stopping = false →
      ch.state ≠ .surveyStep → ch.writeGate = false → (s.engine.drive d).loaded = true →
      syncNeeded (s.front.record d).mfm ≤ f.sync → idReadOf f.bytes = some id →
      let read : Engine := (s.engine.setDrive d { s.engine.drive d with lastVolume := id.volume }).setChan c
        { ch with run := { ch.run with lastId := some id.sector } }
      (id.cylinder = ch.positioning.target →
        exec (.idFieldRead c f) s = .next (left (Engine.confirmed s.front (read.updRun c fun r =>
          { r with firstId := if ch.positioning.why = .recover then r.firstId
                              else r.firstId.or (some id.volume) }) c))) ∧
      (id.cylinder ≠ ch.positioning.target → ch.positioning.again = false →
        exec (.idFieldRead c f) s = .next (left (Engine.beginRecalibrate s.front (read.updPositioning c fun p =>
          { p with again := true, stepped := false }) c))) ∧
      (id.cylinder ≠ ch.positioning.target → ch.positioning.again = true →
        exec (.idFieldRead c f) s = .next (left (Engine.failPositioning s.front
          ((read.updChan c fun ch => { ch with act := .none }).updDrive s.front d fun k =>
            { k with cylinder := none }) c .seekError))))

/-! ### Sectors -/

/-- O45 (R105, R117, R122, R126, R127, R129, R130, R134, R138; log 60): an ID field passes a channel that
seeks sectors in a track pass. It is recognised after a long enough run of sync bytes, and what is not
recognised changes nothing. Its volume goes to the drive's record and its sector number marks the place on
the track; a channel asked to stop begins nothing for it. Where its cylinder, surface, size code and
sector are those of a wanted sector, a READ or CHECK of one copy reads the data field into a free buffer,
and a WRITE with the data ready raises the write gate. Where none matches, nothing else happens but that a
WRITE fills its buffers. One with a bad check word is noted by every search in hand, and is passed by in a
confirm. A volume that differs from the expected one fails the side, where the test is still to be made;
that it may then be made in the pass of a later track is the model's choice (log 60). -/
def Obligations.IdFieldStartsTheSectorItMatches : Prop :=
  (∀ (s : State) (c : Side) (p : PairId) (o : Order) (f : FieldRead) (id : IdRead),
    (s.front.ctl = .run ∨ s.front.ctl = .draining) →
    (s.engine.chan c).selected = some p → (s.engine.drive ⟨c, p⟩).loaded = true →
    (s.engine.chan c).state = .trackPass → (s.engine.chan c).writeGate = false →
    (s.engine.chan c).act = .seeking → s.engine.orderOf? c = some o → idReadOf f.bytes = some id →
    let x := s.front
    let ch := s.engine.chan c
    let r := o.geometry x
    let e := s.engine.setDrive ⟨c, p⟩ { s.engine.drive ⟨c, p⟩ with lastVolume := id.volume }
    let onTrack := id.cylinder = trackCylinder r ch.run.track ∧ id.surface = trackSurface r ch.run.track ∧
      id.sizeCode = r.sizeCode
    let sought (it : Item) : Bool := it.sought ch.run.verify o.kind && it.sector == id.sector
    let marked (items : List Item) : Run :=
      { ch.run with lastId := some id.sector, volumeTested := true, items := items }
    let left (e : Engine) : State := State.settle { s with engine := e }
    let placed : Channel := { ch with run := { ch.run with lastId := some id.sector } }
    (f.sync < (if (x.record ⟨c, p⟩).mfm then 8 else 4) → exec (.idFieldRead c f) s = .next s.settle) ∧
    ((if (x.record ⟨c, p⟩).mfm then 8 else 4) ≤ f.sync →
      (ch.stopping = true → exec (.idFieldRead c f) s = .next (left (e.setChan c placed))) ∧
      (ch.stopping = false →
        (ch.run.volumeTested = false → o.volumeDiffers id.volume = true →
          exec (.idFieldRead c f) s = .next (left ((e.setChan c { placed with act := .ending }).failSide x c
            .wrongVolume))) ∧
        (ch.run.volumeTested = true ∨ o.volumeDiffers id.volume = false →
          (¬onTrack ∨ ch.run.items.find? sought = none →
            exec (.idFieldRead c f) s = .next (left
              ((e.setChan c { ch with run := marked ch.run.items }).fillBuffers x c)) ∧
            (o.kind ≠ .write → exec (.idFieldRead c f) s = .next (left
              (e.setChan c { ch with run := marked ch.run.items })))) ∧
          (∀ it b, o.kind = .read ∨ o.kind = .check → o.mirrored = false → onTrack →
            ch.run.items.find? sought = some it → it.st = .wanted → it.write = false →
            ch.readBuffer? = some b →
            exec (.idFieldRead c f) s = .next (left (e.setChan c
              { ch with
                act := .reading it.pos false b 0, lastBuffer := b,
                buffers := ch.buffers.set b { ch.buffers.get b with use := .reading },
                run := marked (ch.run.items.map fun i =>
                  if i.pos = it.pos then { i with pulses := 0, badId := false } else i) }))) ∧
          (∀ it b m, o.kind = .write → onTrack → ch.run.items.find? sought = some it → it.st = .wanted →
            it.write = true → ch.use .A ≠ .free → ch.use .B ≠ .free → ch.readyBuffer? it.pos = some (b, m) →
            o.pair = p → o.state = .running → o.finish = none → (s.engine.drive ⟨c, p⟩).state = .ready →
            (s.engine.drive ⟨c, p⟩).writeProtected = false →
            exec (.idFieldRead c f) s = .next (left (e.setChan c
              { ch with
                act := .writing it.pos (some b), writeGate := true,
                writeData := dataFieldStream r.mfm m (ch.buffers.get b).data,
                run := marked (ch.run.items.map fun i =>
                  if i.pos = it.pos then { i with pulses := 0, badId := false, mark := m } else i) }))))))) ∧
  ∀ (s : State) (c : Side) (p : PairId) (o : Order) (f : FieldRead),
    (s.front.ctl = .run ∨ s.front.ctl = .draining) →
    (s.engine.chan c).selected = some p → (s.engine.drive ⟨c, p⟩).loaded = true →
    (s.engine.chan c).writeGate = false → s.engine.orderOf? c = some o →
    (if (s.front.record ⟨c, p⟩).mfm then 8 else 4) ≤ f.sync → f.bytes.head? = some 0x3C#8 →
    f.bytes.length ≠ 8 ∨ checkWord f.bytes ≠ 0 →
    let ch := s.engine.chan c
    let noted (it : Item) : Item := if it.sought ch.run.verify o.kind then { it with badId := true } else it
    (ch.state = .trackPass ∨ ch.state = .verifyPass → ch.act = .seeking → ch.stopping = false →
      exec (.idFieldRead c f) s = .next (State.settle { s with
        engine := s.engine.setChan c { ch with run := { ch.run with items := ch.run.items.map noted } } })) ∧
    ((∃ n, ch.act = .confirming n) → ch.state = .positioning → exec (.idFieldRead c f) s = .next s.settle)

/-- O46 (R66, R76, R122, R126, R129, R130, R136, R137; log 32, log 41): what a recognised ID field of a
sought sector begins elsewhere: the channel is in a track or a verify pass, its volume test made. A sector
that is to be read, in the read set or to be read back, is read into a free buffer; with none free it is
passed over. A sector that is to be written goes out from a buffer that holds its data, and is passed over
where none does; a RETIRE writes the fill byte under the RETIRED mark. A sector passed over is counted as
a missed revolution. The sector of a mirrored READ that the other side has is not read. A MEND that holds
a sector not yet passed across passes over the next one. In the verify pass of a FORMAT the ID's volume is
judged too. The model's choices are that the other side's report of a mirrored READ is looked at when the
ID field arrives (log 32) and that a sector's search begins anew when it is passed over (log 41). -/
def Obligations.SoughtSectorsAreReadWrittenOrPassedOver : Prop :=
  ∀ (s : State) (c : Side) (p : PairId) (o : Order) (f : FieldRead) (id : IdRead) (it : Item),
    (s.front.ctl = .run ∨ s.front.ctl = .draining) →
    (s.engine.chan c).selected = some p → (s.engine.drive ⟨c, p⟩).loaded = true →
    (s.engine.chan c).state = .trackPass ∨ (s.engine.chan c).state = .verifyPass →
    (s.engine.chan c).writeGate = false → (s.engine.chan c).act = .seeking →
    (s.engine.chan c).stopping = false → (s.engine.chan c).run.volumeTested = true →
    s.engine.orderOf? c = some o → syncNeeded (s.front.record ⟨c, p⟩).mfm ≤ f.sync →
    idReadOf f.bytes = some id →
    let x := s.front
    let r := o.geometry x
    id.cylinder = trackCylinder r (s.engine.chan c).run.track →
    id.surface = trackSurface r (s.engine.chan c).run.track → id.sizeCode = r.sizeCode →
    ((s.engine.chan c).run.items.find? fun it =>
      it.sought (s.engine.chan c).run.verify o.kind && it.sector == id.sector) = some it →
    let e : Engine := Engine.fillBuffers x
      ((s.engine.setDrive ⟨c, p⟩ { s.engine.drive ⟨c, p⟩ with lastVolume := id.volume }).setChan c
        { s.engine.chan c with run := { (s.engine.chan c).run with lastId := some id.sector } }) c
    let ch := e.chan c
    let items (g : Item → Item) : Run :=
      { ch.run with items := ch.run.items.map fun i => if i.pos = it.pos then g i else i }
    let anew : Run := items fun i => { i with pulses := 0, badId := false }
    let left (e : Engine) : State := State.settle { s with engine := e }
    let passedOver : Engine := (e.updOrder o.slot fun o => { o with missed := min 255 (o.missed + 1) }).setChan c
      { ch with run := anew }
    let reading (b : Side) : Engine := e.setChan c
      { ch with
        act := .reading it.pos it.write b 0, lastBuffer := b,
        buffers := ch.buffers.set b { ch.buffers.get b with use := .reading }, run := anew }
    let writing (b : Option Side) (mark : Byte) (data : List Byte) : Engine := e.setChan c
      { ch with
        act := .writing it.pos b, writeGate := true, writeData := dataFieldStream r.mfm mark data,
        run := items fun i => { i with pulses := 0, badId := false, mark := mark } }
    let gateOpen : Prop := o.pair = p ∧ (s.engine.drive ⟨c, p⟩).state = .ready ∧
      (s.engine.drive ⟨c, p⟩).writeProtected = false ∧ o.state = .running ∧ o.finish = none ∧
      o.writesOn c = true
    (it.st = .written ∨ (it.st = .wanted ∧ it.write = false) →
      (it.st = .written → o.kind = .format → id.volume = o.fields.volume) →
      (it.st = .wanted → o.kind = .read → o.mirrored = true → (o.entry c.other it.pos).reported = false) →
      (it.st = .wanted → o.kind = .mend → ch.holds? = none) →
      (∀ b, ch.readBuffer? = some b → exec (.idFieldRead c f) s = .next (left (reading b))) ∧
      (ch.readBuffer? = none → exec (.idFieldRead c f) s = .next (left passedOver))) ∧
    (it.st = .wanted → it.write = false → o.kind = .mend → ch.holds? ≠ none →
      exec (.idFieldRead c f) s = .next (left passedOver)) ∧
    (it.st = .wanted → it.write = false → o.kind = .read → o.mirrored = true →
      (o.entry c.other it.pos).reported = true →
      exec (.idFieldRead c f) s = .next (left
        ((e.setChan c { ch with run := items fun i => { i with st := .withdrawn } }).carryOn x c))) ∧
    (it.st = .wanted → it.write = true → o.kind ≠ .retire →
      (∀ b m, ch.readyBuffer? it.pos = some (b, m) → gateOpen →
        exec (.idFieldRead c f) s = .next (left (writing (some b) m (ch.buffers.get b).data))) ∧
      (ch.readyBuffer? it.pos = none → exec (.idFieldRead c f) s = .next (left passedOver))) ∧
    (it.st = .wanted → it.write = true → o.kind = .retire → gateOpen →
      exec (.idFieldRead c f) s = .next (left
        (writing none 0x36 (List.replicate r.size o.fields.fill)))) ∧
    (it.st = .written → o.kind = .format → id.volume ≠ o.fields.volume →
      exec (.idFieldRead c f) s = .next (left (e.attemptFailed x c o it .verifyFailed)))

/-- O47 (R68, R122, R129, R131, R138, R139; log 53): a data field passes while a READ of one copy or of a
DETACHED pair reads. Without a DATA or RETIRED mark after a long enough run of sync bytes it is no data
field, and the read goes on. With the DATA mark and a good check word the sector's copy to memory begins,
at its place in the order's buffer, and a ONE READ of a sector listed with the other side good is noted as
stale; that the pair manager is asked at this moment is the model's choice (log 53). A channel asked to
stop waits for the copy alone, and keeps HLD only where the record shows the head loaded. With a bad check
word the attempt has failed: while the retry limit allows, but for the recovery after the second, the
sector is wanted again and the retries rise; with no attempt left the sector has failed DATA_CHECK. -/
def Obligations.DataFieldReadIsJudged : Prop :=
  ∀ (s : State) (c : Side) (o : Order) (it : Item) (w : Bool) (buf : Side) (n : Nat) (f : FieldRead),
    (s.front.ctl = .run ∨ s.front.ctl = .draining) → (s.engine.chan c).act = .reading it.pos w buf n →
    s.engine.orderOf? c = some o → o.kind = .read → o.mirrored = false → it.st = .wanted →
    ((s.engine.chan c).run.items.find? fun i => i.pos == it.pos) = some it →
    let x := s.front
    let ch := s.engine.chan c
    let r := o.geometry x
    let bytes := f.bytes
    let data := (bytes.drop 1).take r.size
    let items (f : Item → Item) : Run :=
      { ch.run with items := ch.run.items.map fun i => if i.pos = it.pos then f i else i }
    let left (e : Engine) : State := State.settle { s with engine := e }
    let heard := (if (x.record ⟨c, o.pair⟩).mfm then 8 else 4) ≤ f.sync ∧
      (bytes.head? = some 0x35#8 ∨ bytes.head? = some 0x36#8)
    let good := bytes.length = r.size + 3 ∧ checkWord bytes = 0
    let freed := ch.buffers.set buf { use := .free, data := data }
    let failed : Channel :=
      { ch with act := .seeking, buffers := freed, run := items fun i => { i with st := .failed } }
    let stale := !o.fields.pairCopy && (s.engine.pairs.get o.pair).bound &&
      (s.engine.pairs.get o.pair).mode == .attached &&
      (s.engine.log.find? fun l => l.pair == o.pair && l.place == o.place x it.pos).any fun l =>
        l.good == c.other
    (¬heard → exec (.dataFieldRead c f) s = .next s.settle) ∧
    (heard → good → bytes.head? = some 0x35#8 → (ch.stopping = true → ch.touch = none) →
      exec (.dataFieldRead c f) s = .next (left ((s.engine.updOrder o.slot fun o =>
        { o.setEntry c it.pos .copying with stale := o.stale || stale }).setChan c
          { ch with
            act := if ch.stopping then .none else .seeking,
            headLoad := ch.headLoad && (!ch.stopping ||
              (ch.selected.map fun p => (s.engine.drive ⟨c, p⟩).loaded).getD true),
            buffers := ch.buffers.set buf { use := .copying it.pos, data := data },
            run := items fun i => { i with st := .copying },
            transfers := ch.transfers ++
              [{ buf := buf, toHost := true, pos := it.pos, addr := o.fields.buffer + it.pos * r.size,
                 words := r.size / 2, moved := 0 }] }))) ∧
    (heard → ¬good → it.tries + 1 ≤ x.tables.retry → it.tries + 1 ≠ 2 → ch.stopping = false →
      exec (.dataFieldRead c f) s = .next (left ((s.engine.updOrder o.slot fun o =>
        { o with retries := min 255 (o.retries + 1) }).setChan c
          { ch with
            act := .seeking, buffers := freed,
            run := items fun i =>
              { i with st := .wanted, tries := i.tries + 1, pulses := 0, badId := false } }))) ∧
    (heard → ¬good → x.tables.retry < it.tries + 1 →
      exec (.dataFieldRead c f) s = .next (left
        ((((s.engine.setChan c (failed.dropData it.pos)).mark o.slot c it.pos
          (.failed .dataCheck)).setPending x o.slot .dataCheck (o.place x it.pos)).carryOn x c)))

/-- O48 (R66, R68, R72, R76, R129, R131, R132, R133, R135, R137, R142; log 53): a data field with a DATA
or RETIRED mark and a good check word passes while a sector is read. In a read-back the mark that was
written makes the sector good: it is done, of a MEND its entry leaves the log, and it is counted, a
mirrored order's by the pair manager; with the other mark the attempt has failed VERIFY_FAILED. A MEND's
read is held in the buffer with its mark. A RETIRED mark is counted as met; under STOP the sector fails
RETIRED_FOUND and the order ends there, in a CHECK too; a CHECK's sector is else good by either mark,
nothing copied; a READ's under SKIP is done and counted without a copy. A READ's other sector is copied,
or, in a mirrored READ whose other side has reported it, discarded and marked done. The channel then goes
on. That a ONE READ's staleness is asked at this moment, and is not asked of a sector under SKIP, of which
nothing is copied, is the model's choice (log 53). -/
def Obligations.GoodDataFieldsAreTaken : Prop :=
  ∀ (s : State) (c : Side) (o : Order) (it : Item) (w : Bool) (buf : Side) (n : Nat) (f : FieldRead) (mark : Byte),
    (s.front.ctl = .run ∨ s.front.ctl = .draining) → (s.engine.chan c).act = .reading it.pos w buf n →
    s.engine.orderOf? c = some o →
    ((s.engine.chan c).run.items.find? fun i => i.pos == it.pos) = some it →
    (if (s.front.record ⟨c, o.pair⟩).mfm then 8 else 4) ≤ f.sync → f.bytes.head? = some mark →
    mark = 0x35#8 ∨ mark = 0x36#8 → f.bytes.length = (o.geometry s.front).size + 3 → checkWord f.bytes = 0 →
    let x := s.front
    let ch := s.engine.chan c
    let r := o.geometry x
    let data := (f.bytes.drop 1).take r.size
    let retired : Bool := mark == 0x36#8
    let other := o.entry c.other it.pos
    let left (e : Engine) : State := State.settle { s with engine := e }
    let goesOn (e : Engine) : State := left ((e.updChan c fun ch => { ch with act := .seeking }).carryOn x c)
    let judged (act : Act) (use : BufferUse) (st : ItemState) : Engine := s.engine.setChan c
      { ch with
        act := act, buffers := ch.buffers.set buf { use := use, data := data },
        run := { ch.run with items := ch.run.items.map fun i => if i.pos = it.pos then { i with st := st } else i } }
    let met (e : Engine) : Engine := e.updOrder o.slot fun o =>
      { o with retiredMet := if retired then min 255 (o.retiredMet + 1) else o.retiredMet }
    let done (e : Engine) : Engine := e.mark o.slot c it.pos .done
    let counted (e : Engine) : Engine := e.updOrder o.slot fun o =>
      { o with sectorsDone := min 65535 (o.sectorsDone + 1) }
    let good := judged .seeking .free .good
    let taken := met (judged .ending .free .good)
    (it.st = .written →
      (mark ≠ it.mark → exec (.dataFieldRead c f) s = .next (left
        ((s.engine.setChan c
          { ch with act := .seeking, buffers := ch.buffers.set buf { use := .free, data := data } }).attemptFailed
          x c o it .verifyFailed))) ∧
      (mark = it.mark →
        (o.kind = .mend →
          let place : Place := { cylinder := ch.run.track / r.surfaces, surface := ch.run.track % r.surfaces,
                                 sector := it.sector }
          exec (.dataFieldRead c f) s = .next (goesOn (counted
            (good.logRemove x fun l => l.pair == o.pair && l.place == place)))) ∧
        (o.kind = .format → exec (.dataFieldRead c f) s = .next
          (goesOn (if o.mirrored then done good else counted (done good)))) ∧
        (o.kind = .write ∨ o.kind = .retire → exec (.dataFieldRead c f) s = .next
          (left ((if o.mirrored then (done good).resolve x o.slot it.pos else counted (done good)).carryOn x c))))) ∧
    (it.st = .wanted →
      (o.kind = .mend →
        exec (.dataFieldRead c f) s = .next (goesOn (judged .seeking (.holding it.pos mark) .holding))) ∧
      (o.kind = .read ∨ o.kind = .check →
        (retired = true → o.fields.policy = .stop →
          exec (.dataFieldRead c f) s = .next (goesOn
            (((met (judged .ending .free .failed)).mark o.slot c it.pos (.failed .retiredFound)).setPending x o.slot
              .retiredFound (o.place x it.pos)))) ∧
        (o.kind = .check → (retired = true → o.fields.policy ≠ .stop) →
          exec (.dataFieldRead c f) s = .next (goesOn
            (if o.mirrored then (done taken).resolve x o.slot it.pos else counted (done taken)))) ∧
        (o.kind = .read → retired = true → o.fields.policy = .skip →
          exec (.dataFieldRead c f) s = .next (goesOn
            (if o.mirrored = true ∧ (other = .done ∨ other = .copying) then done taken else counted (done taken)))) ∧
        (o.kind = .read → (retired = true → o.fields.policy = .take) →
          (o.mirrored = true → other = .done ∨ other = .copying →
            exec (.dataFieldRead c f) s = .next (goesOn (done taken))) ∧
          (o.mirrored = false ∨ (other ≠ .done ∧ other ≠ .copying) →
            let stale := !o.fields.pairCopy && (s.engine.pairs.get o.pair).bound &&
              (s.engine.pairs.get o.pair).mode == .attached &&
              (s.engine.log.find? fun l => l.pair == o.pair && l.place == o.place x it.pos).any fun l =>
                l.good == c.other
            exec (.dataFieldRead c f) s = .next (goesOn
              (((met (judged .seeking (.copying it.pos) .copying)).updOrder o.slot fun o =>
                { o.setEntry c it.pos .copying with stale := o.stale || stale }).updChan c fun ch =>
                { ch with transfers := ch.transfers ++
                    [{ buf := buf, toHost := true, pos := it.pos, addr := o.fields.buffer + it.pos * r.size,
                       words := r.size / 2, moved := 0 }] }))))))

/-- O49 (R69, R76, R78, R134, R136, R137): the end of a data field written: the write gate drops, the
buffer is free, and the sector awaits its read-back, or, without VERIFY, is done, a mirrored order's put
to the pair manager; then the buffers are filled and the channel goes on. PASS_ACROSS: the data a MEND has
read goes to a free buffer of the other channel, mark included, and the reading buffer is free. -/
def Obligations.WrittenFieldsAndPassedDataGoOn : Prop :=
  ∀ (s : State) (c : Side) (o : Order), (s.front.ctl = .run ∨ s.front.ctl = .draining) →
    s.engine.orderOf? c = some o →
    let x := s.front
    let ch := s.engine.chan c
    let left (e : Engine) : State := State.settle { s with engine := e }
    (∀ pos buf, ch.act = .writing pos buf →
      let freed : BySide SectorBuffer := match buf with
        | some b => ch.buffers.set b { ch.buffers.get b with use := .free }
        | none => ch.buffers
      let items (f : Item → Item) : Run :=
        { ch.run with items := ch.run.items.map fun i => if i.pos = pos then f i else i }
      let e (f : Item → Item) : Engine := s.engine.setChan c
        { ch with act := .seeking, writeGate := false, writeData := [], buffers := freed, run := items f }
      let written := e fun i => { i with st := .written, pulses := 0, badId := false }
      let done := e fun i => { i with st := .good }
      (o.kind = .mend →
        exec (.dataFieldWritten c) s = .next (left ((written.fillBuffers x c).carryOn x c))) ∧
      (o.kind ≠ .mend → o.fields.verify = true →
        exec (.dataFieldWritten c) s = .next (left
          ((((written.setBack o.pair ch.run.track).mark o.slot c pos .written).fillBuffers x c).carryOn x c))) ∧
      (o.kind ≠ .mend → o.fields.verify = false → o.mirrored = false →
        exec (.dataFieldWritten c) s = .next (left
          (((((done.setBack o.pair ch.run.track).mark o.slot c pos .done).countDone o.slot).fillBuffers
            x c).carryOn x c))) ∧
      (o.kind ≠ .mend → o.fields.verify = false → o.mirrored = true →
        let ended : Engine := done.updChan c fun ch => { ch with act := .ending }
        let resolved : Engine := ((ended.setBack o.pair ch.run.track).mark o.slot c pos .done).resolve x o.slot pos
        exec (.dataFieldWritten c) s = .next (left
          (((resolved.updChan c fun ch => { ch with act := .seeking }).fillBuffers x c).carryOn x c)))) ∧
    (∀ b b' pos mark, ch.holds? = some b → ch.use b = .holding pos mark →
      (s.engine.chan c.other).order = ch.order → (s.engine.chan c.other).readBuffer? = some b' →
      let co := s.engine.chan c.other
      exec (.passAcross c) s = .next (left (((s.engine.setChan c.other
        { co with buffers := co.buffers.set b' { use := .ready pos mark, data := (ch.buffers.get b).data } }
        ).setChan c
        { ch with
          buffers := ch.buffers.set b { ch.buffers.get b with use := .free },
          run := { ch.run with items := ch.run.items.map fun i =>
            if i.pos = pos then { i with st := .passed } else i } }).carryOn x c)))

/-- O50 (R69, R76, R117, R137, R138, R139, R140; log 2, log 34, log 35, log 39): the search for a wanted
sector has seen two index pulses. While the retry limit allows, the sector is sought again, and the
retries rise at once or, after the second failed attempt, the recovery is made first; with no attempt left
the sector has failed with SECTOR_NOT_FOUND, or ID_CHECK where a bad ID field passed. In a verify pass the
code is VERIFY_FAILED, and a sector to be read back counts as not begun (log 39): of a MEND it is to be
read again on the other side, of a FORMAT the track has failed at it, and the pass goes on. A failed
sector of a mirrored order is put to the pair manager; a MEND ends at it. A channel asked to stop begins
no attempt. The model's choices are that a timeout with no such search in hand does nothing (log 2), that
it is taken when the channel waits for a sector and not while it reads or writes one (log 34), and that
the retry of a recovery is counted when the recovery is over (log 35). -/
def Obligations.SearchTimeoutFailsTheAttempt : Prop :=
  (∀ (s : State) (c : Side) (o : Order) (sector : Nat), (s.front.ctl = .run ∨ s.front.ctl = .draining) →
    (s.engine.chan c).act = .seeking → (s.engine.chan c).state = .trackPass →
    (s.engine.chan c).run.verify = false → s.engine.orderOf? c = some o →
    let x := s.front
    let ch := s.engine.chan c
    let left (e : Engine) : State := State.settle { s with engine := e }
    let timedOut (i : Item) : Bool := i.sought false o.kind && i.sector == sector && decide (2 ≤ i.pulses)
    (ch.stopping = true ∨ ch.run.items.find? timedOut = none →
      exec (.searchTimeout c sector) s = .next (left s.engine)) ∧
    ∀ it, ch.stopping = false → o.kind = .read ∨ o.kind = .check ∨ o.kind = .retire → ch.run.items.find? timedOut = some it →
      let items (f : Item → Item) : Channel :=
        { ch with run := { ch.run with items := ch.run.items.map fun i => if i.pos = it.pos then f i else i } }
      let again := s.engine.setChan c (items fun i =>
        { i with st := .wanted, tries := i.tries + 1, pulses := 0, badId := false })
      let failed := items fun i => { i with st := .failed }
      let code : FinishCode := if it.badId then .idCheck else .sectorNotFound
      (it.tries + 1 ≤ x.tables.retry → it.tries + 1 ≠ 2 →
        exec (.searchTimeout c sector) s = .next (left (again.updOrder o.slot fun o =>
          { o with retries := min 255 (o.retries + 1) }))) ∧
      (2 ≤ x.tables.retry → it.tries + 1 = 2 →
        exec (.searchTimeout c sector) s = .next (left (again.recover x c o))) ∧
      (o.mirrored = false → x.tables.retry < it.tries + 1 →
        exec (.searchTimeout c sector) s = .next (left
          ((((s.engine.setChan c (failed.dropData it.pos)).mark o.slot c it.pos
            (.failed code)).setPending x o.slot code (o.place x it.pos)).carryOn x c)))) ∧
  ∀ (s : State) (c : Side) (o : Order) (sector : Nat) (it : Item), (s.front.ctl = .run ∨ s.front.ctl = .draining) →
    (s.engine.chan c).act = .seeking →
    (s.engine.chan c).state = .trackPass ∨ (s.engine.chan c).state = .verifyPass →
    s.engine.orderOf? c = some o → (s.engine.chan c).stopping = false →
    ((s.engine.chan c).run.items.find? fun i =>
      i.sought (s.engine.chan c).run.verify o.kind && i.sector == sector && decide (2 ≤ i.pulses)) = some it →
    let x := s.front
    let ch := s.engine.chan c
    let left (e : Engine) : State := State.settle { s with engine := e }
    let code : FinishCode :=
      if ch.run.verify then .verifyFailed else if it.badId then .idCheck else .sectorNotFound
    let readBack : Prop := ch.run.verify = true ∧ it.st = .written ∧ it.write = true
    let judged (e0 : Engine) : Prop :=
      let items (f : Item → Item) : Channel :=
        { ch with run := { ch.run with items := ch.run.items.map fun i => if i.pos = it.pos then f i else i } }
      let sought := e0.setChan c (items fun i =>
        { i with st := .wanted, tries := i.tries + 1, pulses := 0, badId := false })
      let again := if o.kind = .mend ∧ it.st = .written then
          sought.updChan c.other fun co => { co with run := { co.run with items := co.run.items.map fun i =>
            if i.sector = it.sector ∧ i.write = false then { i with st := .wanted, pulses := 0, badId := false }
            else i } }
        else sought
      let failed := e0.setChan c ((items fun i => { i with st := .failed }).dropData it.pos)
      let marked := failed.mark o.slot c it.pos (.failed code)
      (o.kind ≠ .format →
        (it.tries + 1 ≤ x.tables.retry → it.tries + 1 ≠ 2 →
          exec (.searchTimeout c sector) s = .next (left (((again.updOrder o.slot fun o =>
            { o with retries := min 255 (o.retries + 1) }).fillBuffers x c).carryOn x c))) ∧
        (2 ≤ x.tables.retry → it.tries + 1 = 2 →
          exec (.searchTimeout c sector) s = .next (left (again.recover x c o))) ∧
        (x.tables.retry < it.tries + 1 →
          (o.kind = .mend → exec (.searchTimeout c sector) s = .next (left ((failed.setPending x o.slot code
            { cylinder := ch.run.track / (o.geometry x).surfaces, surface := ch.run.track % (o.geometry x).surfaces,
              sector := it.sector }).carryOn x c))) ∧
          (o.kind ≠ .mend → o.mirrored = false → exec (.searchTimeout c sector) s = .next (left
            ((marked.setPending x o.slot code (o.place x it.pos)).carryOn x c))) ∧
          (o.kind ≠ .mend → o.mirrored = true → exec (.searchTimeout c sector) s = .next (left
            (((marked.resolve x o.slot it.pos).fillBuffers x c).carryOn x c))))) ∧
      (o.kind = .format → exec (.searchTimeout c sector) s = .next (left
        ((e0.setChan c (items fun i => { i with st := .failed })).carryOn x c)))
    (readBack → o.kind ≠ .mend → judged (s.engine.mark o.slot c it.pos .notBegun)) ∧
    (¬readBack ∨ o.kind = .mend → judged s.engine)

/-! ### Index pulses, samples and surveys -/

/-- O51 (R111, R113, R118, R125, R135, R138, R140, R150, R151; log 17): an index pulse on a selected
drive. A pulse that starts a period, or ends one in range, on a READY drive: the period is kept, and the
channel's searches count the pulse, a confirm counts it and is over with the second, and a FORMAT begins
or ends its track, its sectors not done any more as it begins. A survey step passes to its next stage, and
ends after the last one when three samples are taken. On a drive that is UNKNOWN or NOT_READY no period is
timed, and the channel counts the pulse; the first pulse on an OFF_SPEED one starts a period. A period out
of range is counted; the second in a row makes the drive OFF_SPEED, tells DRIVEn, and a side that runs on
it fails. On an OFF_SPEED drive two periods in range make it READY again, and one out of range starts the
count anew. 500 ms without a pulse make a READY drive OFF_SPEED; a failure met in early positioning is
held, and a survey step ends. The 166.4 ms of a FORMAT's planned bytes are the model's reading (log 17).
-/
def Obligations.IndexPulsesAreCounted : Prop :=
  ∀ (s : State) (c : Side) (p : PairId), (s.front.ctl = .run ∨ s.front.ctl = .draining) →
    (s.engine.chan c).selected = some p →
    let x := s.front
    let d : Drive := ⟨c, p⟩
    let ch := s.engine.chan c
    let k := s.engine.drive d
    let left (e : Engine) : State := State.settle { s with engine := e }
    let inRange (n : Nat) : Prop := 1584 ≤ n ∧ n ≤ 1750
    let running : Prop := ch.state = .positioning ∨ ch.state = .trackPass ∨ ch.state = .verifyPass
    let offSpeed (period : Nat) : Engine := (s.engine.setDrive d
      { k with period := period, state := .offSpeed, outCount := 0, inCount := 0 }).writeStatus x d
      (some (.attention d))
    let counted (kind : Kind) (i : Item) : Item :=
      if i.sought ch.run.verify kind then { i with pulses := i.pulses + 1 } else i
    let stageAfter (st : SurveyStage) : SurveyStage :=
      if st = .waitIndex then .waitRevolution else .over
    let pulsed (elapsed : Nat) (e : Engine) : Prop :=
      (ch.act = .confirming 0 →
        exec (.indexPulse c elapsed) s = .next (left (e.setChan c { ch with act := .confirming 1 }))) ∧
      (ch.act = .confirming 1 → exec (.indexPulse c elapsed) s = .next (left (e.confirmed x c))) ∧
      (∀ o, s.engine.orderOf? c = some o →
        (ch.act = .seeking → ch.state = .trackPass ∨ ch.state = .verifyPass →
          exec (.indexPulse c elapsed) s = .next (left (e.setChan c
            { ch with run := { ch.run with items := ch.run.items.map (counted o.kind) } }))) ∧
        (k.state = .ready → ch.act = .awaitIndex → ch.state = .trackPass ∨ ch.state = .verifyPass → o.kind = .format →
          o.pair = p → o.state = .running → o.finish = none → k.writeProtected = false →
          exec (.indexPulse c elapsed) s = .next (left ((e.updOrder o.slot fun o =>
            { o with
              progress := o.progress.set c ((o.progress.get c).map fun v => if v = .done then .notBegun else v),
              sectorsDone := if o.mirrored then o.sectorsDone
                else o.sectorsDone - (o.progress.get c).countP (· == .done) }).setChan c
            { ch with
              act := .formatting false, writeGate := true,
              writeData := formatTrack (x.record d) o.fields.volume o.fields.fill o.fields.cylinder
                o.fields.surface }))) ∧
        (ch.act = .formatting false →
          (elapsed < 1664 →
            exec (.indexPulse c elapsed) s = .next (left (e.setChan c { ch with act := .formatting true }))) ∧
          (1664 ≤ elapsed →
            exec (.indexPulse c elapsed) s = .next (left (e.endFormat x c o))))) ∧
      (∀ st n, ch.act = .surveying st n →
        let e' := e.setChan c { ch with act := .surveying (stageAfter st) n }
        exec (.indexPulse c elapsed) s = .next (left
          (if st ≠ .waitIndex ∧ 3 ≤ n then e'.endSurveyStep x c else e')))
    (k.state = .ready → ∀ elapsed, (k.timing = true → inRange elapsed) → pulsed elapsed (s.engine.setDrive d
      (if k.timing then { k with period := elapsed, outCount := 0 } else { k with timing := true }))) ∧
    (k.state ≠ .ready → k.state ≠ .offSpeed → ∀ elapsed, pulsed elapsed s.engine) ∧
    (k.state = .offSpeed → k.timing = false → ∀ elapsed,
      pulsed elapsed (s.engine.setDrive d { k with timing := true })) ∧
    (k.state = .ready → k.timing = true → ∀ elapsed, ¬inRange (min 65535 elapsed) →
      let period := min 65535 elapsed
      (k.outCount = 0 → exec (.indexPulse c elapsed) s = .next (left (Engine.channelPulse x
        (s.engine.setDrive d { k with period := period, outCount := 1 }) c elapsed))) ∧
      (1 ≤ k.outCount → running → ch.act ≠ .selecting → s.engine.orderOf? c ≠ none →
        exec (.indexPulse c elapsed) s = .next (left ((offSpeed period).failSide x c .offSpeed)))) ∧
    (k.state = .offSpeed → k.timing = true → ∀ elapsed,
      let period := min 65535 elapsed
      let went (e : Engine) : Host.Outcome State Fault Refusal := .next (left (e.channelPulse x c elapsed))
      (¬inRange period → exec (.indexPulse c elapsed) s =
        went (s.engine.setDrive d { k with period := period, inCount := 0 })) ∧
      (inRange period → k.inCount = 0 → exec (.indexPulse c elapsed) s =
        went (s.engine.setDrive d { k with period := period, inCount := 1 })) ∧
      (inRange period → 1 ≤ k.inCount → exec (.indexPulse c elapsed) s =
        went ((s.engine.setDrive d
          { k with period := period, state := .ready, outCount := 0, inCount := 0 }).writeStatus x d none))) ∧
    (k.state = .ready → ch.act ≠ .selecting →
      (running → exec (.noIndexTimeout c) s = .next (left ((offSpeed k.period).failSide x c .offSpeed))) ∧
      (ch.state = .partnerWait → ch.stopping = false →
        exec (.noIndexTimeout c) s = .next (left ((offSpeed k.period).holdFailure x c .offSpeed))) ∧
      (ch.state = .surveyStep →
        exec (.noIndexTimeout c) s = .next (left ((offSpeed k.period).endSurveyStep x c)))) ∧
    (k.state ≠ .ready → exec (.noIndexTimeout c) s = .next s.settle)

/-- O52 (R118, R144, R145, R146, R147, R150, R151, R152, R153, R154, R158; log 10, log 24, log 51): a
sample of a drive's lines. A drive that is not selected keeps its record. On a selected one the write-
protect and track-0 levels and the two-sided sense are taken, then the ready sample is counted: a sample
equal to the held level ends the run; without a held level the run counts samples that agree; with
debounce off the level is taken at the first differing sample, with debounce on at the third. Then an
active write-protect line fails a side that writes on the drive, and a survey step counts the sample. A
level taken moves the state: UNKNOWN to READY or NOT_READY, READY and OFF_SPEED to NOT_READY, and
NOT_READY to READY with a medium change; a READY drive that falls stops the side that has it selected. The
model's choices are that the levels stay on the pins till the next sample (log 10), that the selection
sample leaves write protect to the test before the first transfer and the later samples end a writing side
at once (log 24), and that the flags are taken before the ready level (log 51). -/
def Obligations.SamplesFollowTheLines : Prop :=
  (∀ (s : State) (d : Drive) (l : Lines), (s.front.ctl = .run ∨ s.front.ctl = .draining) →
    let x : Front := { s.front with pins := s.front.pins.setDrive d l }
    let flags (k : Knowledge) : Knowledge :=
      { k with
        writeProtected := l.wprt, track0 := l.trk0,
        twoSided := if (x.record d).aux = .twoSidedSense then l.aux else k.twoSided,
        aux := if (x.record d).aux = .twoSidedSense then l.aux else k.aux }
    ((s.engine.chan d.side).selected ≠ some d.pair →
      exec (.readySample d l) s = .next (State.settle { s with front := x })) ∧
    ((s.engine.chan d.side).selected = some d.pair →
      exec (.readySample d l) s = .next (State.settle { s with
        front := x,
        engine := ((((s.engine.updDrive x d flags).sampleReady x d l.ready).protectStops x d).surveySample x
          d.side) }))) ∧
  ∀ (x : Front) (e : Engine) (d : Drive),
    let k := e.drive d
    let ch := e.chan d.side
    (∀ level : Bool,
      let run : Nat := match k.held with
        | some h => if level = h then 0 else k.sampleRun + 1
        | none => if k.lastSample = some level then k.sampleRun + 1 else 1
      let e' := e.setDrive d { k with sampleRun := run, lastSample := some level }
      e.sampleReady x d level =
        if (if (x.record d).debounce then 3 else 1) ≤ run then e'.takeLevel x d level else e') ∧
    (∀ o, e.orderOf? d.side = some o →
      ch.selected = some d.pair → ch.state = .positioning ∨ ch.state = .trackPass ∨ ch.state = .verifyPass →
      o.writesOn d.side = true → k.writeProtected = true →
      e.protectStops x d = e.failSide x d.side .writeProtected) ∧
    (k.writeProtected = false ∨ (∀ o, e.orderOf? d.side = some o → o.writesOn d.side = false) →
      e.protectStops x d = e) ∧
    let taken (level : Bool) (st : DriveState) : Knowledge :=
      { k with held := some level, sampleRun := 0, state := st, outCount := 0, inCount := 0 }
    let tell (level : Bool) : Option Notice :=
      if (x.record d).edge = .both ∨ (x.record d).edge = (if level then .toReady else .toNotReady)
      then some (.attention d) else none
    let down : Engine := (e.setDrive d (taken false .notReady)).writeStatus x d (tell false)
    (k.state = .unknown →
      e.takeLevel x d true =
        (e.setDrive d { taken true .ready with timing := false }).writeStatus x d (tell true) ∧
      e.takeLevel x d false = down) ∧
    (k.state = .ready → e.takeLevel x d false = down.leaveReady x d .notReady ∧
      (ch.selected = some d.pair → ch.act ≠ .selecting →
        ch.state = .positioning ∨ ch.state = .trackPass ∨ ch.state = .verifyPass →
        down.leaveReady x d .notReady = down.failSide x d.side .notReady)) ∧
    (k.state = .offSpeed → e.takeLevel x d false = down) ∧
    (k.state = .notReady →
      let e' := e.setDrive d
        { k with held := some true, sampleRun := 0, state := .ready, timing := false,
                 generation := k.generation + 1 }
      e.takeLevel x d true =
        ((e'.rosterChange x d).pairChange x d).writeStatus x d (some (.attention d))) ∧
    ((k.state = .ready ∨ k.state = .offSpeed →
        e.takeLevel x d true = e.setDrive d { k with held := some true, sampleRun := 0 }) ∧
      (k.state = .notReady →
        e.takeLevel x d false = e.setDrive d { k with held := some false, sampleRun := 0 }))

/-- O53 (R71, R125, R135, R137; log 2, log 54): the nominal final fill of a FORMAT track that the index
had already passed ends: the track has ended. Under VERIFY the gate is down, every sector is written, and
the channel, not asked to stop, is in VERIFY_PASS and seeks them. Without VERIFY every sector of the track
is done, sectors done rises by as many in a FORMAT of one copy, and in a mirrored one each is put to the
pair manager, the side having reported; then the channel releases the order. The model's choices are that
the event does nothing where no such track is being written (log 2), and that a mirrored FORMAT's sectors
are resolved when both sides' work on the track is over (log 54). -/
def Obligations.FormatTrackEnds : Prop :=
  ∀ (s : State) (c : Side) (o : Order), (s.front.ctl = .run ∨ s.front.ctl = .draining) →
    s.engine.orderOf? c = some o →
    let ch := s.engine.chan c
    let e := s.engine.endFormat s.front c o
    (ch.act = .formatting true →
      exec (.nominalFinalFillEnd c) s = .next (State.settle { s with engine := e })) ∧
    (ch.act ≠ .formatting true → exec (.nominalFinalFillEnd c) s = .next s.settle) ∧
    (o.fields.verify = true → ch.stopping = false →
      (e.chan c).state = .verifyPass ∧ (e.chan c).act = .seeking ∧ (e.chan c).writeGate = false ∧
      (e.chan c).writeData = [] ∧ (e.chan c).run.verify = true ∧ (e.chan c).order = ch.order ∧
      (e.chan c).run.items = ch.run.items.map (fun i =>
        { i with st := .written, pulses := 0, badId := false }) ∧
      (o.sectorCount s.front ≤ (o.progress.get c).length →
        ∃ o', e.order? o.slot = some o' ∧ ∀ i < o.sectorCount s.front, o'.entry c i = .written)) ∧
    (o.fields.verify = false → o.kind = .format → 1 ≤ o.sectorCount s.front →
      o.sectorCount s.front ≤ (o.progress.get c).length →
      ∃ (e' : Engine) (o' : Order),
        e = (if o.mirrored then e'.resolveAll s.front o.slot else e').release s.front c ∧
        (e'.chan c).act = .ending ∧ (e'.chan c).writeGate = false ∧ (e'.chan c).order = ch.order ∧
        e'.chan c.other = s.engine.chan c.other ∧ e'.log = s.engine.log ∧ e'.port = s.engine.port ∧
        e'.order? o.slot = some o' ∧ (∀ i < o.sectorCount s.front, o'.entry c i = .done) ∧
        o'.sectorsDone =
          if o.mirrored then o.sectorsDone else min 65535 (o.sectorsDone + o.sectorCount s.front))

/-! ### Mirror pairs -/

/-- O54 (R63, R65, R66, R67, R69, R70, R71, R72, R118; log 21, log 28, log 54): the pair manager resolves
one sector of a mirrored order. For a WRITE, FORMAT or RETIRE it waits till each side has the sector or
has failed it (of a FORMAT also till each side's work on the track is over, the model's choice: log 54),
at the end of a run till nothing: both have it and its entry is removed; one has it and an entry with that
side good is added, or rewritten in place, and counted as logged, unless the pair has detached; neither
has it, the log is as it was, and the sector fails with side A's code, else B's. A CHECK logs a sector
that one permitted side found good and the other bad, and fails one that no permitted side found good with
A's code, else B's, the sides' failures as a whole counting where one side alone may check it, which is
the model's choice (log 21). A resolution lowers the order's reservation and the total by 1 and counts the
sector where a side has done it. A READ's sector fails when every permitted side has failed it. A side
that fails as a whole, before it releases its order, has every sector that it has not done failed with the
side's code, one that had failed already too, and one that is written and not yet read back, which is the
model's choice (log 28); the other side's sectors are as they were. -/
def Obligations.MirroredSectorsAreResolved : Prop :=
  (∀ (x : Front) (e : Engine) (slot i : Nat) (o : Order),
    e.order? slot = some o → o.mirrored = true → o.finish = none → o.resolved[i]? = some false →
    let pl := o.place x i
    let a := o.entry .A i
    let b := o.entry .B i
    let ours (l : LogEntry) : Bool := l.pair == o.pair && l.place == pl
    let put (good : Side) : List LogEntry :=
      let l : LogEntry :=
        { pair := o.pair, good := good, place := pl, origin := slot, originKind := o.kind }
      match e.log.findIdx? ours with
      | some k => e.log.set k l
      | none => e.log ++ [l]
    let attached : Bool := (e.pairs.get o.pair).mode == .attached
    let known (v : Entry) : Bool := v == .done || v.failure.isSome
    let done : Bool := a == .done || b == .done
    let resolvesTo (final : Bool) (log : List LogEntry) (logs done : Bool) (code : Option FinishCode) : Prop :=
      ∃ e', e.resolveOnce x slot i final = (e', code) ∧ e'.log = log ∧ e'.reserved = e.reserved - 1 ∧
        e'.order? slot = some { o with
          reservation := o.reservation - 1, resolved := o.resolved.set i true,
          sectorsDone := if done then min 65535 (o.sectorsDone + 1) else o.sectorsDone,
          logged := if logs then o.logged + 1 else o.logged } ∧
        (∀ k, k ≠ slot → e'.order? k = e.order? k) ∧ e'.pairs = e.pairs ∧ e'.channels = e.channels ∧
        e'.drives = e.drives ∧ e'.attention = e.attention
    let oneSide (final : Bool) (good : Side) : Prop :=
      if attached then resolvesTo final (put good) true done none
      else resolvesTo final e.log false done none
    (o.kind = .write ∨ o.kind = .format ∨ o.kind = .retire → 0 < o.reservation →
      let reported : Prop := o.kind = .format →
        ∀ c, (e.chan c).order = some slot → (e.chan c).act = .ending
      (known a = false ∨ known b = false ∨ ¬reported → e.resolveOnce x slot i false = (e, none)) ∧
      ∀ final, final = true ∨ (known a = true ∧ known b = true ∧ reported) →
        let hasA := a == .done || (final && a == .written)
        let hasB := b == .done || (final && b == .written)
        (hasA = true → hasB = true →
          resolvesTo final (e.log.filter fun l => !(ours l)) false done none) ∧
        (hasA = true → hasB = false → oneSide final .A) ∧
        (hasA = false → hasB = true → oneSide final .B) ∧
        (hasA = false → hasB = false → resolvesTo final e.log false done (a.failure.or b.failure))) ∧
    (o.kind = .check → 0 < o.reservation →
      resolvesTo true e.log false false none ∧
      let bad (v : Entry) : Prop :=
        v = .failed .sectorNotFound ∨ v = .failed .idCheck ∨ v = .failed .dataCheck
      (e.log.find? ours = none →
        (a = .done → b = .done → resolvesTo false e.log false true none) ∧
        (a = .done → bad b → oneSide false .A) ∧
        (bad a → b = .done → oneSide false .B) ∧
        (bad a → bad b → resolvesTo false e.log false false a.failure) ∧
        (known a = false ∨ known b = false → e.resolveOnce x slot i false = (e, none))) ∧
      ∀ l, e.log.find? ours = some l →
        let v := o.entry l.good i
        (v = .done → resolvesTo false e.log false true none) ∧
        (∀ code, v = .failed code → code ≠ .retiredFound →
          resolvesTo false e.log false false (some code)) ∧
        (known v = false → e.resolveOnce x slot i false = (e, none))) ∧
    (o.kind = .read →
      e.resolveOnce x slot i true = (e, none) ∧
      (e.log.find? ours = none →
        e.resolveOnce x slot i false =
          (e, if a.failure.isSome && b.failure.isSome then a.failure else none)) ∧
      ∀ l, e.log.find? ours = some l →
        e.resolveOnce x slot i false = (e, (o.entry l.good i).failure))) ∧
  ∀ (x : Front) (e : Engine) (c : Side) (slot : Nat) (o : Order) (code : FinishCode),
    (e.chan c).order = some slot → e.order? slot = some o →
    ∃ (e' : Engine) (o' : Order), e.failSide x c code = e'.release x c ∧
      (e'.chan c).order = some slot ∧ (e'.chan c).writeGate = false ∧ (e'.chan c).transfers = [] ∧
      e'.order? slot = some o' ∧ o'.fields = o.fields ∧
      o'.progress.get c.other = o.progress.get c.other ∧
      o'.progress.get c = (o.progress.get c).map fun v => if v = .done then .done else .failed code

/-- O55 (R21, R24, R27, R58, R60, R73, R152; log 48): a medium change on a drive. Every held order whose
finish is not decided, that covers the drive and was accepted under another generation: one that waits
finishes MEDIUM_CHANGED at once; one that runs is stopped and noted, and where it has ended already its
code is its withdraw mark's or MEDIUM_CHANGED; no other order changes. That a mark's code goes before
MEDIUM_CHANGED for every kind is the model's choice (log 48). A bound, ATTACHED pair of the drive is
DETACHED with the other side kept, the entries with the changed side good are counted as lost, up to 32,
and the pair's entries leave the log; another pair is as it was. -/
def Obligations.MediumChangeReachesOrdersAndPairs : Prop :=
  ∀ (x : Front) (e : Engine) (d : Drive),
    (e.mediumChange x d = (((e.setDrive d
      { e.drive d with generation := (e.drive d).generation + 1 }).rosterChange x d).pairChange x d).writeStatus x d
        (some (.attention d))) ∧
    ((e.held.map Order.slot).Nodup →
      (∀ o ∈ e.held,
        o.withdrawMark = none ∨ o.withdrawMark = some .withdrawn ∨ o.withdrawMark = some .aborted) →
      let e' := e.rosterChange x d
      ∀ o ∈ e.held,
        let meets : Prop := o.finish = none ∧ o.fields.covers d = true ∧
          o.generation.get d.side ≠ some (e.drive d).generation
        (meets → o.state ≠ .running →
          ∃ o' ∈ e'.held, o'.slot = o.slot ∧ o'.fields = o.fields ∧ o'.finish = some .mediumChanged) ∧
        (meets → o.state = .running →
          ∃ o' ∈ e'.held, o'.slot = o.slot ∧ o'.fields = o.fields ∧ o'.changedMedium = true ∧
            (o'.finish = none ∨ o'.finish = some (o.withdrawMark.getD .mediumChanged)) ∧
            ∀ c, (e'.chan c).order = some o.slot → (e'.chan c).stopping = true) ∧
        (¬meets → o ∈ e'.held)) ∧
    let r := e.pairs.get d.pair
    let lost := (e.log.filter fun l => l.pair == d.pair && l.good == d.side).length
    (r.bound = true → r.mode = .attached →
      (e.pairChange x d).pairs = e.pairs.set d.pair
        { r with mode := .detached, kept := d.side.other, lost := min 32 (r.lost + lost) } ∧
      (e.pairChange x d).log = e.log.filter (fun l => !(l.pair == d.pair)) ∧
      (e.pairChange x d).held = e.held ∧ (e.pairChange x d).channels = e.channels) ∧
    (r.bound = false ∨ r.mode = .detached → e.pairChange x d = e)

/-! ### The choice -/

/-- O56 (R21, R24, R28, R67, R68, R69, R70, R76, R77, R79, R86, R87; log 19, log 48): how a run ends. A
channel that releases its order deselects the drive, with the unload timer set by the head and HLD dropped
where it was raised for a head not yet loaded, gives up what it had in hand and is IDLE; with no other
channel on the order the run is over, and the sectors left of a mirrored order are resolved. The code is
that of the withdraw mark, else MEDIUM_CHANGED, else that of the first failure recorded, else that of a
side of a SEEK or RECALIBRATE, else OK_ONE_SIDE where an entry was logged, else STALE_READ, else OK. The
order then finishes with it. A standing order stays, with its runs one higher, unless the code ends it; in
DRAINING it finishes STOPPED. A MEND whose turn ends OK finishes OK where an ATTACHED pair has no entry
left, or a DETACHED one has had its last track, with which it becomes ATTACHED; otherwise, in RUN, it is
QUEUED at the tail with age 0, its cursor on the next track of a DETACHED pair, and in DRAINING it
finishes STOPPED. The model's choices are that a sector of a mirrored READ whose copy was given up counts
as failed (log 19), and that the mark goes before a medium change for every kind (log 48). -/
def Obligations.RunsEnd : Prop :=
  ∀ (x : Front) (e : Engine) (slot : Nat),
    (∀ c, (e.chan c).order = some slot → ∃ e' : Engine,
      (e.release x c = if (e.chan c.other).order = some slot then e' else e'.endRun x slot) ∧
      (e'.chan c).state = .idle ∧ (e'.chan c).order = none ∧ (e'.chan c).selected = none ∧
      (e'.chan c).transfers = [] ∧ (e'.chan c).act = .none ∧ (e'.chan c).stopping = false ∧
      e'.chan c.other = e.chan c.other ∧ e'.held = e.held ∧ e'.log = e.log ∧ e'.pairs = e.pairs ∧
      ∀ p, (e.chan c).selected = some p →
        (e'.chan c).headLoad = ((e.chan c).headLoad && (e.drive ⟨c, p⟩).loaded) ∧
        let delay := (x.record ⟨c, p⟩).unload
        e'.timers.drive ⟨c, p⟩ =
          if (e.drive ⟨c, p⟩).loaded = false then .stopped else if delay = 0 then .pending else .running delay) ∧
    (∀ o, e.order? slot = some o → o.mirrored = false → e.resolveRest x slot = e) ∧
    (∀ o : Order, o.mirrored = false ∨ o.kind ≠ .read → o.leftFailure x = none) ∧
    ∀ o, (e.resolveRest x slot).order? slot = some o → o.finish = none →
      let r := e.resolveRest x slot
      let failure := o.pendingCode.or (o.leftFailure x)
      let earned (code : FinishCode) : Prop :=
        (∀ m, o.withdrawMark = some m → code = m) ∧
        (o.withdrawMark = none → o.changedMedium = true → code = .mediumChanged) ∧
        (o.withdrawMark = none → o.changedMedium = false →
          (∀ f, failure = some f → code = f.1) ∧
          (failure = none → ∀ f, o.sideFailure.a.or o.sideFailure.b = some f →
            o.kind = .seek ∨ o.kind = .recalibrate → code = f) ∧
          (failure = none →
            o.sideFailure.a.or o.sideFailure.b = none ∨ (o.kind ≠ .seek ∧ o.kind ≠ .recalibrate) →
            code = if o.mirrored = true ∧ 0 < o.logged then .okOneSide
              else if o.stale then .staleRead else .ok))
      let put (f : Order → Order) : Engine := r.updOrder slot fun o' => f { o' with
        runs := if o'.fields.standing then (o'.runs + 1) % 256 else o'.runs,
        pendingCode := o'.pendingCode.or (o'.leftFailure x) }
      let ended := put id
      ∀ code, earned code →
        let ends : Prop := code = .mediumChanged ∨ code = .withdrawn ∨ code = .aborted ∨ code = .stopped ∨
          code = .late
        (o.kind ≠ .mend ∨ code ≠ .ok →
          (o.fields.standing = false ∨ ends → e.endRun x slot = ended.decideFinish x slot code false) ∧
          (o.fields.standing = true → ¬ends →
            (x.ctl = .run → e.endRun x slot = ended.backToStanding x slot code) ∧
            (x.ctl ≠ .run → e.endRun x slot = ended.decideFinish x slot .stopped false))) ∧
        (o.kind = .mend → code = .ok →
          let pair := r.pairs.get o.pair
          let g := o.geometry x
          let left (cursor : Order → Option Nat) : Prop :=
            (x.ctl ≠ .run → e.endRun x slot =
              (put fun o' => { o' with cursor := cursor o' }).decideFinish x slot .stopped false) ∧
            (x.ctl = .run →
              let again := put fun o' => { o' with
                cursor := cursor o', state := .queued, age := 0, turn := none, waiter := none,
                plan := BySide.both false, mirrored := false, sideFailure := BySide.both none }
              e.endRun x slot = { again with
                held := again.held.filter (fun o' => !(o'.slot == slot)) ++
                  again.held.filter (fun o' => o'.slot == slot),
                port := { again.port with queue := again.port.queue ++
                  [{ kind := .slotWrite,
                     words := [{ addr := x.areaBase.toNat * 256 + (0x240 + 32 * slot), data := some 2 }],
                     notice := none }] } })
          (pair.mode = .attached →
            ((∀ l ∈ r.log, l.pair ≠ o.pair) → e.endRun x slot = ended.decideFinish x slot .ok false) ∧
            ((∃ l ∈ r.log, l.pair = o.pair) → left Order.cursor)) ∧
          (pair.mode = .detached →
            (o.turn = none → left Order.cursor) ∧
            ∀ t, o.turn = some t →
              (t.track + 1 ≠ g.cylinders * g.surfaces → left fun _ => some (t.track + 1)) ∧
              (t.track + 1 = g.cylinders * g.surfaces → e.endRun x slot =
                (Engine.writePair x { ended with
                  pairs := ended.pairs.set o.pair { pair with mode := .attached, lost := 0 },
                  held := ended.held.map fun (o' : Order) =>
                    if o'.kind == .mend && o'.pair == o.pair then { o' with cursor := none } else o' }
                  o.pair).decideFinish x slot .ok false)))

/-- O57 (R33, R34, R35, R36, R37, R38, R39): which orders are eligible for a channel: one that is QUEUED
with its finish not decided, whose plan has the channel's side, whose plan's drives are all READY, that no
order before it in the list fences, and whose room the log has. The plan of a ONE order is its drive's
side; a MEND's both sides where both drives are READY, else none; that of another PAIR order on an
ATTACHED pair its READY sides, on a DETACHED pair the kept side. An earlier order fences a later one while
it is QUEUED, BOUND-WAIT or RUNNING with its finish not decided, a drive lies in both coverages, and their
sectors meet: of two orders without a MEND one writes and the sectors are runs of positions that have one
in common, a FORMAT's being its whole track and a SEEK's or RECALIBRATE's none; a MEND meets every order
that writes. WRITE, FORMAT, RETIRE, MEND and a PAIR CHECK count as writing. -/
def Obligations.EligibleOrdersPassTheTests : Prop :=
  (∀ (x : Front) (e : Engine) (c : Side) (before after : List Order) (o : Order),
    e.held = before ++ o :: after → (e.held.map Order.slot).Nodup →
    let ready (c : Side) : Bool := decide ((e.drive ⟨c, o.fields.drive.pair⟩).state = .ready)
    let pair := e.pairs.get o.fields.drive.pair
    let plan := e.planOf o
    (o.fields.pairCopy = false → plan = (BySide.both false).set o.fields.drive.side true) ∧
    (o.fields.pairCopy = true →
      (o.fields.kind = .mend → plan = BySide.both (ready .A && ready .B)) ∧
      (o.fields.kind ≠ .mend → pair.bound = true →
        (pair.mode = .attached → plan = ⟨ready .A, ready .B⟩) ∧
        (pair.mode = .detached → plan = (BySide.both false).set pair.kept true))) ∧
    (e.eligible x o c = true ↔
      o.state = .queued ∧ o.finish = none ∧ plan.get c = true ∧
      (∀ c', plan.get c' = true → ready c' = true) ∧ (∀ a ∈ before, a.fences x o = false) ∧
      e.roomNeed x o ≤ 32 - e.log.length - e.reserved)) ∧
  ∀ (x : Front) (a b : Order),
    let covers (o : Order) (d : Drive) : Prop :=
      o.fields.drive = d ∨ (o.fields.pairCopy = true ∧ o.fields.drive.pair = d.pair)
    let writes (o : Order) : Prop :=
      o.fields.kind = .write ∨ o.fields.kind = .format ∨ o.fields.kind = .retire ∨ o.fields.kind = .mend ∨
        (o.fields.kind = .check ∧ o.fields.pairCopy = true)
    let touches (o : Order) (position : Nat) : Prop :=
      let f := o.fields
      let r := x.record f.drive
      let track := (f.cylinder * r.surfaces + f.surface) * r.sectors
      (f.kind = .format ∧ track ≤ position ∧ position < track + r.sectors) ∨
      ((f.kind = .read ∨ f.kind = .write ∨ f.kind = .check ∨ f.kind = .retire) ∧
        track + (f.firstSector - r.firstSector) ≤ position ∧
        position < track + (f.firstSector - r.firstSector) + f.count)
    let mend : Prop := a.fields.kind = .mend ∨ b.fields.kind = .mend
    (a.fences x b = true ↔
      a.finish = none ∧ (a.state = .queued ∨ a.state = .boundWait ∨ a.state = .running) ∧
      (∃ d, covers a d ∧ covers b d) ∧
      ((mend ∧ writes a ∧ writes b) ∨
        (¬mend ∧ (writes a ∨ writes b) ∧ ∃ position, touches a position ∧ touches b position)))

/-- O58 (R42, R43, R44, R45, R46, R47, R100): the score and the winner. S = 2U - (D + H + W), with its
terms; under a plan of both sides each term of the cost is the greater of the two; with classes 0 to 3 and
cylinders 0 to 79 it lies in -104 to 894. The winner of a choice: one exactly when an order is eligible,
and it is the order claimed. Where an eligible order is overdue, the winner is an overdue one of the
greatest age, the earliest such in post order; otherwise it is an eligible one of the greatest score, the
earliest such. -/
def Obligations.WinnerIsOldestOverdueOrBestScore : Prop :=
  (∀ (x : Front) (e : Engine) (o : Order),
    let cls := (x.tables.desks[o.fields.desk]?.map Desk.cls).getD 0
    let rush := if o.fields.rush = true ∧ (x.clock.phase = .near ∨ x.clock.phase = .closed) then 128 else 0
    let t := e.target x o
    let D (c : Side) : Nat := match (e.drive ⟨c, o.pair⟩).cylinder with
      | some v => if v ≤ t then t - v else v - t
      | none => 80
    let H (c : Side) : Nat := if (e.drive ⟨c, o.pair⟩).loaded then 0 else 16
    let W (c : Side) : Nat := if (e.chan c).lastSelected = some o.pair then 0 else 8
    let U := 64 * cls + min o.age 127 + rush
    (∀ c, e.planOf o = (BySide.both false).set c true →
      e.score x o = 2 * (U : Int) - ((D c + H c + W c : Nat) : Int)) ∧
    (e.planOf o = BySide.both true →
      e.score x o = 2 * (U : Int) -
        ((max (D .A) (D .B) + max (H .A) (H .B) + max (W .A) (W .B) : Nat) : Int)) ∧
    (cls ≤ 3 → t < 80 → (∀ d v, (e.drive d).cylinder = some v → v < 80) →
      -104 ≤ e.score x o ∧ e.score x o ≤ 894)) ∧
  ∀ (x : Front) (e : Engine) (c : Side),
    ((∃ o ∈ e.held, e.eligible x o c = true) ↔ ∃ w, e.winner? x c = some w) ∧
    ∀ w, e.winner? x c = some w →
      e.eligible x w c = true ∧ ((e.choose x c).chan c).claim = some { slot := w.slot, held := true } ∧
      ∃ before after, e.held = before ++ w :: after ∧
        ((∃ o ∈ e.held, e.eligible x o c = true ∧ x.tables.overdue ≤ o.age) →
          x.tables.overdue ≤ w.age ∧
          (∀ o ∈ before, e.eligible x o c = true → x.tables.overdue ≤ o.age → o.age < w.age) ∧
          ∀ o ∈ after, e.eligible x o c = true → x.tables.overdue ≤ o.age → o.age ≤ w.age) ∧
        ((∀ o ∈ e.held, e.eligible x o c = true → o.age < x.tables.overdue) →
          (∀ o ∈ before, e.eligible x o c = true → e.score x o < e.score x w) ∧
          ∀ o ∈ after, e.eligible x o c = true → e.score x o ≤ e.score x w)

/-! ### The recording format and the register bits -/

/-- O59 (R121 to R126, R131): what the part writes reads back. A field with its check word is good; an ID
field is recognised with the five values it was written with; a data field is good and holds its data; and
the planned bytes of a FORMAT track that fits are exactly one revolution. -/
def Obligations.WrittenFieldsReadBack : Prop :=
  (∀ bytes, checkWord (withCheck bytes) = 0) ∧
  (∀ (volume : Byte) (cylinder surface sector sizeCode : Nat),
    cylinder < 256 → surface < 256 → sector < 256 → sizeCode < 256 →
    idReadOf (idField volume cylinder surface sector sizeCode) =
      some { volume := volume, cylinder := cylinder, surface := surface, sector := sector,
             sizeCode := sizeCode }) ∧
  (∀ (r : DriveRecord) (mark : Byte) (data : List Byte), mark = 0x35#8 ∨ mark = 0x36#8 →
    data.length = r.size → dataGood r (dataField mark data) = true ∧ dataBytes r (dataField mark data) = data) ∧
  ∀ (r : DriveRecord) (volume fill : Byte) (cylinder surface : Nat),
    trackNeed r.mfm r.sectors r.size ≤ (if r.mfm then 10400 else 5200) →
    (formatTrack r volume fill cylinder surface).length = if r.mfm then 10400 else 5200

/-- O60 (R102, R162, R166 to R170, R174, R176; log 25, log 30, log 61): what the part shows and is told. A
channel's change of state is shown in the header: its state's code in the low-order byte, its running slot
in the high-order byte, which is none in IDLE, SURVEY_STEP and STOPPED; where the state is as it was,
nothing is written. The interrupt line: a DONE bit with its notify-pending bit, an ATTENTION bit that the
mask enables, CONFIG_ERROR or FAULT. What the six registers read, with the reset line active too, which is
the model's choice (log 61). And what a host write to them asks: the words 1 to 7 in COMMAND/STATE name
the seven commands and every other word leaves no trace; a word in another register is that register's
write. R162 has no queue of commands: that a write joins the tail of the commands waiting is the model's
way to let it come (log 30), and that a RESET carries how many words of the access on the bus had moved is
its choice (log 25). -/
def Obligations.HeaderRegistersAndInterruptLine : Prop :=
  (∀ (x : Front) (e : Engine) (c : Side) (st : ChannelState),
    let ch := e.chan c
    let code : Nat := match st with
      | .idle => 0
      | .partnerWait => 1
      | .positioning => 2
      | .trackPass => 3
      | .verifyPass => 4
      | .surveyStep => 5
      | .stopped => 6
    let slot : Nat :=
      if st = .idle ∨ st = .surveyStep ∨ st = .stopped then 0xFF else ch.order.getD 0xFF
    let offset : Nat := match c with
      | .A => 0x18
      | .B => 0x1A
    (ch.state = st → e.enter x c st = e) ∧
    (ch.state ≠ st → e.enter x c st = (e.setChan c { ch with state := st }).issue .headerWrite
      [{ addr := x.areaBase.toNat * 256 + offset,
         data := some (BitVec.ofNat 16 (code + 256 * (slot % 256))) }] none)) ∧
  ∀ s : State,
    (s.interrupt = true ↔
      (∃ k, k < 32 ∧ s.front.done.getLsbD k = true ∧ s.front.notify.getLsbD k = true) ∨
      (∃ k, k < 8 ∧ s.engine.attention.getLsbD k = true ∧ s.front.enable.getLsbD k = true) ∨
      s.engine.attention.getLsbD 8 = true ∨ s.engine.attention.getLsbD 9 = true) ∧
    (s.front.actionQ.length ≤ 8 → s.readCommandState.toNat =
      s.front.ctl.code + 16 * (8 - s.front.actionQ.length) + (if (s.engine.chan .A).busy then 256 else 0) +
        (if (s.engine.chan .B).busy then 512 else 0) + if s.interrupt then 32768 else 0) ∧
    s.readAreaBase.toNat = s.front.areaBase.toNat ∧
    (s.front.actionQ.length ≤ 8 → s.readAction.toNat = 8 - s.front.actionQ.length) ∧
    (∀ k < 16, s.readDoneLow.getLsbD k = s.front.done.getLsbD k ∧
      s.readDoneHigh.getLsbD k = s.front.done.getLsbD (16 + k)) ∧
    s.readAttention.toNat = s.engine.attention.toNat ∧
    ∀ (w : Word) (moved : Nat),
      let asks (c : Instr) : State := { s with pending := s.pending ++ [c] }
      (∀ n c, (n, c) ∈ [(1, Instr.start), (2, .stop), (3, .abortAll), (4, .reset moved), (5, .clockLoad),
          (6, .clockRun), (7, .clockHalt)] →
        w.toNat = n → s.hostWrite .commandState w moved = asks c) ∧
      (w.toNat = 0 ∨ 7 < w.toNat → s.hostWrite .commandState w moved = s) ∧
      s.hostWrite .areaBase w moved = asks (.areaBaseWrite w) ∧
      s.hostWrite .action w moved = asks (.actionWrite w) ∧
      s.hostWrite .doneLow w moved = asks (.doneClear false w) ∧
      s.hostWrite .doneHigh w moved = asks (.doneClear true w) ∧
      s.hostWrite .attention w moved = asks (.attentionClear w)
end

