-- ==== Sys2Proof/Laws/Keeps.lean ====
section
/-! SUPPORT. What each operation of the engine leaves as it is: one lemma an operation, in the form "an
engine kept so far is kept still" (see `Engine.Keeps`). -/

namespace Sys2Proof.Machine

/-! ### The relation -/

theorem Engine.Keeps.refl (e : Engine) : e.Keeps e :=
  ⟨List.Perm.refl _, id, id, rfl, rfl, List.prefix_refl _, rfl, rfl, rfl⟩

theorem Engine.Keeps.trans {a b c : Engine} (h : a.Keeps b) (k : b.Keeps c) : a.Keeps c :=
  ⟨k.held.trans h.held, fun x => k.log (h.log x), fun x => k.clear (h.clear x), k.desks.trans h.desks, k.closes.trans h.closes,
    h.queue.trans k.queue, k.notices.trans h.notices, k.inProgress.trans h.inProgress,
    k.lastWord.trans h.lastWord⟩

/-- A change of parts the relation does not speak of. -/
theorem Engine.Keeps.same {a b c : Engine} (h : a.Keeps b) (held : c.held = b.held) (log : c.log = b.log)
    (pairs : c.pairs = b.pairs)
    (desks : c.deskHeld = b.deskHeld) (closes : c.closes = b.closes) (port : c.port = b.port) :
    a.Keeps c := by
  refine h.trans ⟨?_, ?_, ?_, desks, closes, ?_, ?_, ?_, ?_⟩ <;> simp [held, log, pairs, port]

theorem Engine.Keeps.foldl {a : Engine} {ι : Type} (f : Engine → ι → Engine) (l : List ι)
    (hf : ∀ e i, a.Keeps e → a.Keeps (f e i)) : ∀ {e : Engine}, a.Keeps e → a.Keeps (l.foldl f e) := by
  induction l with
  | nil => exact fun h => h
  | cons i l ih => exact fun h => ih (hf _ i h)

variable {a e : Engine}

theorem Engine.Keeps.setChan (h : a.Keeps e) (c : Side) (v : Channel) : a.Keeps (e.setChan c v) :=
  h.same rfl rfl rfl rfl rfl rfl

theorem Engine.Keeps.updChan (h : a.Keeps e) (c : Side) (f : Channel → Channel) : a.Keeps (e.updChan c f) :=
  h.same rfl rfl rfl rfl rfl rfl

theorem Engine.Keeps.setDrive (h : a.Keeps e) (d : Drive) (k : Knowledge) : a.Keeps (e.setDrive d k) :=
  h.same rfl rfl rfl rfl rfl rfl

theorem Engine.Keeps.setTimer (h : a.Keeps e) (d : Drive) (t : Timer) : a.Keeps (e.setTimer d t) :=
  h.same rfl rfl rfl rfl rfl rfl

theorem Engine.Keeps.setAttention (h : a.Keeps e) (n : Nat) : a.Keeps (e.setAttention n) :=
  h.same rfl rfl rfl rfl rfl rfl

theorem Engine.Keeps.updSurvey (h : a.Keeps e) (v : Survey) : a.Keeps { e with survey := v } :=
  h.same rfl rfl rfl rfl rfl rfl

theorem Engine.Keeps.updReserved (h : a.Keeps e) (n : Nat) : a.Keeps { e with reserved := n } :=
  h.same rfl rfl rfl rfl rfl rfl

theorem Engine.Keeps.updReport (h : a.Keeps e) (r : ByDrive Bool) : a.Keeps { e with report := r } :=
  h.same rfl rfl rfl rfl rfl rfl

theorem Engine.Keeps.updTimers (h : a.Keeps e) (t : ByDrive Timer) : a.Keeps { e with timers := t } :=
  h.same rfl rfl rfl rfl rfl rfl

/-- Other pair records, with no entry of a pair that is DETACHED in them. -/
theorem Engine.Keeps.updPairs (h : a.Keeps e) (p : ByPair PairRecord)
    (clear : LogClear e.pairs e.log → LogClear p e.log) : a.Keeps { e with pairs := p } :=
  h.trans ⟨List.Perm.refl _, id, clear, rfl, rfl, List.prefix_refl _, rfl, rfl, rfl⟩

theorem Engine.Keeps.updFreeIndex (h : a.Keeps e) (n : Nat) : a.Keeps { e with freeIndex := n } :=
  h.same rfl rfl rfl rfl rfl rfl

/-- The same orders, with the same keys in the same places. -/
theorem Engine.Keeps.mapHeld (h : a.Keeps e) (f : Order → Order) (hf : ∀ o, (f o).key = o.key) :
    a.Keeps { e with held := e.held.map f } := by
  refine h.trans ⟨?_, id, id, rfl, rfl, List.prefix_refl _, rfl, rfl, rfl⟩
  have : Order.key ∘ f = Order.key := funext hf
  simp [List.map_map, this]

theorem Engine.Keeps.updOrder (h : a.Keeps e) (slot : Nat) (f : Order → Order)
    (hf : ∀ o, (f o).key = o.key) : a.Keeps (e.updOrder slot f) := by
  apply h.mapHeld
  intro o
  split
  · exact hf o
  · rfl

theorem Engine.Keeps.toTail (h : a.Keeps e) (slot : Nat) : a.Keeps (e.toTail slot) := by
  refine h.trans ⟨?_, id, id, rfl, rfl, List.prefix_refl _, rfl, rfl, rfl⟩
  refine List.Perm.map _ ?_
  refine List.Perm.trans List.perm_append_comm ?_
  exact List.filter_append_perm (fun o : Order => o.slot == slot) e.held

theorem Engine.Keeps.issue (h : a.Keeps e) (k : RequestKind) (ws : List Access) (n : Option Notice) :
    a.Keeps (e.issue k ws n) :=
  h.trans ⟨List.Perm.refl _, id, id, rfl, rfl, List.prefix_append _ _, rfl, rfl, rfl⟩

theorem Engine.Keeps.headerWrite {x : Front} (h : a.Keeps e) (ws : List (Nat × Word)) (n : Option Notice) :
    a.Keeps (e.headerWrite x ws n) := h.issue _ _ _

theorem Engine.Keeps.enter {x : Front} (h : a.Keeps e) (c : Side) (st : ChannelState) :
    a.Keeps (e.enter x c st) := by
  unfold Engine.enter
  split
  · exact h
  · exact (h.updChan _ _).headerWrite _ _

end Sys2Proof.Machine
end

