-- ==== Sys2Proof/Laws/KeepsPairs.lean ====
section
/-! SUPPORT. What the operations of the engine leave as it is (`Engine.Keeps`): the writes, the pair manager, the roster and the release of orders. -/

namespace Sys2Proof.Machine

variable {a e : Engine}

theorem Engine.Keeps.writeCtl {x : Front} (h : a.Keeps e) (c : Ctl) :
    a.Keeps (e.writeCtl x c) := by
  dsimp only [Engine.writeCtl]
  repeat' first
    | assumption
    | split
    | with_reducible apply Engine.Keeps.headerWrite

theorem Engine.Keeps.writeClock {x : Front} (h : a.Keeps e)  :
    a.Keeps (e.writeClock x) := by
  dsimp only [Engine.writeClock]
  repeat' first
    | assumption
    | split
    | with_reducible apply Engine.Keeps.headerWrite

theorem Engine.Keeps.writeSurvey {x : Front} (h : a.Keeps e)  :
    a.Keeps (e.writeSurvey x) := by
  dsimp only [Engine.writeSurvey]
  repeat' first
    | assumption
    | split
    | with_reducible apply Engine.Keeps.headerWrite

theorem Engine.Keeps.writeTotal {x : Front} (h : a.Keeps e)  :
    a.Keeps (e.writeTotal x) := by
  dsimp only [Engine.writeTotal]
  repeat' first
    | assumption
    | split
    | with_reducible apply Engine.Keeps.headerWrite

theorem Engine.Keeps.writeDesk {x : Front} (h : a.Keeps e) (desk : Nat) :
    a.Keeps (e.writeDesk x desk) := by
  dsimp only [Engine.writeDesk]
  repeat' first
    | assumption
    | split
    | with_reducible apply Engine.Keeps.issue

theorem Engine.Keeps.writeReserved {x : Front} (h : a.Keeps e)  :
    a.Keeps (e.writeReserved x) := by
  dsimp only [Engine.writeReserved]
  repeat' first
    | assumption
    | split
    | with_reducible apply Engine.Keeps.headerWrite

theorem Engine.Keeps.writeCounts {x : Front} (h : a.Keeps e)  :
    a.Keeps (e.writeCounts x) := by
  dsimp only [Engine.writeCounts]
  repeat' first
    | assumption
    | split
    | with_reducible apply Engine.Keeps.headerWrite

theorem Engine.Keeps.writeLogLength {x : Front} (h : a.Keeps e)  :
    a.Keeps (e.writeLogLength x) := by
  dsimp only [Engine.writeLogLength]
  repeat' first
    | assumption
    | split
    | with_reducible apply Engine.Keeps.issue

theorem Engine.Keeps.writePair {x : Front} (h : a.Keeps e) (p : PairId) :
    a.Keeps (e.writePair x p) := by
  dsimp only [Engine.writePair]
  repeat' first
    | assumption
    | split
    | with_reducible apply Engine.Keeps.issue

theorem Engine.Keeps.writeImageWords {x : Front} (h : a.Keeps e) (pos : Nat) (ws : List Word) :
    a.Keeps (e.writeImageWords x pos ws) := by
  dsimp only [Engine.writeImageWords]
  repeat' first
    | assumption
    | split
    | with_reducible apply Engine.Keeps.issue

theorem Engine.Keeps.writeImageFrom {x : Front} (h : a.Keeps e) (pos : Nat) :
    a.Keeps (e.writeImageFrom x pos) := by
  dsimp only [Engine.writeImageFrom]
  repeat' first
    | assumption
    | split
    | with_reducible apply Engine.Keeps.writeImageWords
    | (apply Engine.Keeps.foldl; intro e i h)

theorem Engine.Keeps.writeVacated {x : Front} (h : a.Keeps e) (count : Nat) :
    a.Keeps (e.writeVacated x count) := by
  dsimp only [Engine.writeVacated]
  repeat' first
    | assumption
    | split
    | with_reducible apply Engine.Keeps.writeImageWords
    | (apply Engine.Keeps.foldl; intro e i h)

theorem Engine.Keeps.writeStatus {x : Front} (h : a.Keeps e) (d : Drive) (notice : Option Notice) :
    a.Keeps (e.writeStatus x d notice) := by
  dsimp only [Engine.writeStatus]
  repeat' first
    | assumption
    | split
    | with_reducible apply Engine.Keeps.issue

theorem Engine.Keeps.writePhase {x : Front} (h : a.Keeps e) (slot phase : Nat) (notice : Option Notice) :
    a.Keeps (e.writePhase x slot phase notice) := by
  dsimp only [Engine.writePhase]
  repeat' first
    | assumption
    | split
    | with_reducible apply Engine.Keeps.issue

theorem Engine.Keeps.writeResults {x : Front} (h : a.Keeps e) (slot : Nat) (r : Results) :
    a.Keeps (e.writeResults x slot r) := by
  dsimp only [Engine.writeResults]
  repeat' first
    | assumption
    | split
    | with_reducible apply Engine.Keeps.issue

theorem Engine.Keeps.recordAction {x : Front} (h : a.Keeps e) (w : Word) (o : ActionOutcome)
    (n : Option Notice) : a.Keeps (e.recordAction x w o n) := by
  dsimp only [Engine.recordAction]
  exact h.headerWrite _ _

theorem Engine.Keeps.writeLastAction {x : Front} (h : a.Keeps e) (w : Word) (o : ActionOutcome) :
    a.Keeps (e.writeLastAction x w o) :=
  h.recordAction _ _ _

theorem Engine.Keeps.updDrive {x : Front} (h : a.Keeps e) (d : Drive) (f : Knowledge → Knowledge) :
    a.Keeps (e.updDrive x d f) := by
  dsimp only [Engine.updDrive]
  repeat' first
    | assumption
    | split
    | with_reducible apply Engine.Keeps.setDrive
    | with_reducible apply Engine.Keeps.writeStatus

theorem Engine.Keeps.changeDrive {x : Front} (h : a.Keeps e) (d : Drive) (f : Knowledge → Knowledge) :
    a.Keeps (e.changeDrive x d f) := by
  dsimp only [Engine.changeDrive]
  repeat' first
    | assumption
    | split
    | with_reducible apply Engine.Keeps.setDrive

theorem Engine.Keeps.writeBack {x : Front} (h : a.Keeps e) (pos vacated : Nat) :
    a.Keeps (e.writeBack x pos vacated) := by
  dsimp only [Engine.writeBack]
  repeat' first
    | assumption
    | split
    | with_reducible apply Engine.Keeps.writeImageFrom
    | with_reducible apply Engine.Keeps.writeVacated
    | with_reducible apply Engine.Keeps.writeLogLength
    | with_reducible apply Engine.Keeps.writeCounts

/-- The sector an entry is for. -/
def LogEntry.sector (l : LogEntry) : PairId × Place := (l.pair, l.place)

theorem LogEntry.sameSector_iff (a b : LogEntry) : a.sameSector b = true ↔ a.sector = b.sector := by
  simp [LogEntry.sameSector, LogEntry.sector]

theorem logOnce_iff (log : List LogEntry) : LogOnce log ↔ (log.map LogEntry.sector).Nodup := by
  rw [LogOnce, List.Nodup, List.pairwise_map]
  refine List.Pairwise.iff fun {a b} => ?_
  rw [Ne, ← LogEntry.sameSector_iff, Bool.not_eq_true]

/-- Another log with one entry a sector. -/
theorem Engine.Keeps.updLog (h : a.Keeps e) (log : List LogEntry) (once : LogOnce e.log → LogOnce log)
    (clear : LogClear e.pairs e.log → LogClear e.pairs log) : a.Keeps { e with log := log } :=
  h.trans ⟨List.Perm.refl _, once, clear, rfl, rfl, List.prefix_refl _, rfl, rfl, rfl⟩

theorem logOnce_set {log : List LogEntry} {l : LogEntry} {k : Nat}
    (hk : log.findIdx? l.sameSector = some k) (h : LogOnce log) : LogOnce (log.set k l) := by
  obtain ⟨hlt, hs, -⟩ := List.findIdx?_eq_some_iff_getElem.mp hk
  rw [logOnce_iff] at h ⊢
  rw [LogEntry.sameSector_iff] at hs
  have : (log.map LogEntry.sector)[k]'(by simpa using hlt) = l.sector := by simpa using hs.symm
  rw [List.map_set, ← this, List.set_getElem_self]
  exact h

theorem logOnce_append {log : List LogEntry} {l : LogEntry} (hk : log.findIdx? l.sameSector = none)
    (h : LogOnce log) : LogOnce (log ++ [l]) := by
  rw [LogOnce, List.pairwise_append]
  refine ⟨h, List.pairwise_singleton _ _, fun a ha b hb => ?_⟩
  have := List.findIdx?_eq_none_iff.mp hk a ha
  rw [List.mem_singleton.mp hb, ← Bool.not_eq_true, LogEntry.sameSector_iff, eq_comm,
    ← LogEntry.sameSector_iff, Bool.not_eq_true]
  exact this

/-- An entry joins or is rewritten while its pair is not DETACHED. -/
theorem Engine.Keeps.logSet {x : Front} (h : a.Keeps e) (l : LogEntry)
    (hl : (e.pairs.get l.pair).mode ≠ .detached) : a.Keeps (e.logSet x l) := by
  dsimp only [Engine.logSet]
  split
  · refine (h.updLog _ (logOnce_set ‹_›) fun k m hm => ?_).writeBack _ _
    rcases List.mem_or_eq_of_mem_set hm with hm | rfl
    · exact k m hm
    · exact hl
  · refine (h.updLog _ (logOnce_append ‹_›) fun k m hm => ?_).writeBack _ _
    rcases List.mem_append.mp hm with hm | hm
    · exact k m hm
    · rw [List.mem_singleton.mp hm]; exact hl

theorem Engine.Keeps.logRemove {x : Front} (h : a.Keeps e) (p : LogEntry → Bool) :
    a.Keeps (e.logRemove x p) := by
  dsimp only [Engine.logRemove]
  split
  · exact h
  · exact (h.updLog _ (fun k => List.Pairwise.filter _ k) fun k m hm => k m (List.mem_of_mem_filter hm)).writeBack
      _ _

theorem Engine.Keeps.reserve {x : Front} (h : a.Keeps e) (slot n : Nat) :
    a.Keeps (e.reserve x slot n) := by
  dsimp only [Engine.reserve]
  repeat' first
    | assumption
    | split
    | with_reducible apply Engine.Keeps.updOrder
    | with_reducible apply Engine.Keeps.writeReserved
    | exact fun _ => rfl
    | apply Engine.Keeps.updReserved

theorem Engine.Keeps.unreserve {x : Front} (h : a.Keeps e) (slot : Nat) :
    a.Keeps (e.unreserve x slot) := by
  dsimp only [Engine.unreserve]
  repeat' first
    | assumption
    | split
    | with_reducible apply Engine.Keeps.updOrder
    | with_reducible apply Engine.Keeps.writeReserved
    | exact fun _ => rfl
    | apply Engine.Keeps.updReserved

theorem Engine.Keeps.spend (h : a.Keeps e) (slot : Nat) :
    a.Keeps (e.spend slot) := by
  dsimp only [Engine.spend]
  repeat' first
    | assumption
    | split
    | with_reducible apply Engine.Keeps.updOrder
    | exact fun _ => rfl
    | apply Engine.Keeps.updReserved

theorem Engine.Keeps.logOutcome {x : Front} (h : a.Keeps e) (o : Order) (pl : Place) (good : Side) :
    a.Keeps (e.logOutcome x o pl good) := by
  dsimp only [Engine.logOutcome]
  split
  · rename_i hm
    refine Engine.Keeps.updOrder (h.logSet _ ?_) _ _ fun _ => rfl
    simp only [hm]
    decide
  · exact h.writeReserved

theorem Engine.Keeps.markResolved (h : a.Keeps e) (slot i : Nat) (isDone : Bool) :
    a.Keeps (e.markResolved slot i isDone) := by
  dsimp only [Engine.markResolved]
  repeat' first
    | assumption
    | split
    | with_reducible apply Engine.Keeps.updOrder
    | exact fun _ => rfl

theorem Engine.Keeps.resolveWrite {x : Front} (h : a.Keeps e) (o : Order) (i : Nat) (final : Bool) :
    a.Keeps (e.resolveWrite x o i final).1 := by
  dsimp only [Engine.resolveWrite]
  repeat' first
    | assumption
    | split
    | with_reducible apply Engine.Keeps.settled
    | with_reducible apply Engine.Keeps.spend
    | with_reducible apply Engine.Keeps.markResolved
    | with_reducible apply Engine.Keeps.logRemove
    | with_reducible apply Engine.Keeps.writeReserved
    | with_reducible apply Engine.Keeps.logOutcome

theorem Engine.Keeps.resolveCheck {x : Front} (h : a.Keeps e) (o : Order) (i : Nat) (final : Bool) :
    a.Keeps (e.resolveCheck x o i final).1 := by
  dsimp only [Engine.resolveCheck]
  repeat' first
    | assumption
    | split
    | with_reducible apply Engine.Keeps.settled
    | with_reducible apply Engine.Keeps.spend
    | with_reducible apply Engine.Keeps.markResolved
    | with_reducible apply Engine.Keeps.writeReserved
    | with_reducible apply Engine.Keeps.logOutcome

theorem Engine.Keeps.resolveOnce {x : Front} (h : a.Keeps e) (slot i : Nat) (final : Bool) :
    a.Keeps (e.resolveOnce x slot i final).1 := by
  dsimp only [Engine.resolveOnce]
  repeat' first
    | assumption
    | split
    | with_reducible apply Engine.Keeps.resolveWrite
    | with_reducible apply Engine.Keeps.resolveCheck

theorem Engine.Keeps.resolveRest {x : Front} (h : a.Keeps e) (slot : Nat) :
    a.Keeps (e.resolveRest x slot) := by
  dsimp only [Engine.resolveRest]
  repeat' first
    | assumption
    | split
    | with_reducible apply Engine.Keeps.resolveOnce
    | (apply Engine.Keeps.foldl; intro e i h)

theorem ByPair.get_set {α : Type} (t : ByPair α) (p q : PairId) (v : α) :
    (t.set p v).get q = if q = p then v else t.get q := by
  cases p <;> cases q <;> rfl

@[simp] theorem Engine.writeBack_log (x : Front) (e : Engine) (pos vacated : Nat) :
    (e.writeBack x pos vacated).log = e.log ∧ (e.writeBack x pos vacated).pairs = e.pairs := by
  have fold {ι : Type} (f : Engine → ι → Engine)
      (hf : ∀ e i, (f e i).log = e.log ∧ (f e i).pairs = e.pairs) (l : List ι) :
      ∀ e : Engine, (l.foldl f e).log = e.log ∧ (l.foldl f e).pairs = e.pairs := by
    induction l with
    | nil => exact fun e => ⟨rfl, rfl⟩
    | cons i l ih => exact fun e => ⟨(ih _).1.trans (hf e i).1, (ih _).2.trans (hf e i).2⟩
  have from' (e : Engine) : (e.writeImageFrom x pos).log = e.log ∧ (e.writeImageFrom x pos).pairs = e.pairs := by
    unfold Engine.writeImageFrom
    apply fold
    exact fun _ _ => ⟨rfl, rfl⟩
  have vacated' (e : Engine) : (e.writeVacated x vacated).log = e.log ∧ (e.writeVacated x vacated).pairs = e.pairs := by
    unfold Engine.writeVacated
    apply fold
    exact fun _ _ => ⟨rfl, rfl⟩
  exact ⟨((vacated' _).1.trans (from' e).1), ((vacated' _).2.trans (from' e).2)⟩

/-- What a removal leaves in the log, and the pair records as they were. -/
theorem Engine.logRemove_log (x : Front) (e : Engine) (p : LogEntry → Bool) :
    (e.logRemove x p).log = e.log.filter (fun l => !(p l)) ∧ (e.logRemove x p).pairs = e.pairs := by
  unfold Engine.logRemove
  split
  · rename_i h
    rw [List.findIdx?_eq_none_iff] at h
    exact ⟨(List.filter_eq_self.mpr fun l hl => by simp [h l hl]).symm, rfl⟩
  · exact ⟨(Engine.writeBack_log _ _ _ _).1, (Engine.writeBack_log _ _ _ _).2⟩

/-- A pair's record is replaced, its write-back issued, and the entries a test picks are removed: what is
left is clear if every entry of the pair is picked, or the pair is not DETACHED. -/
theorem Engine.Keeps.repair {x : Front} (h : a.Keeps e) (p : PairId) (r : PairRecord) (t : LogEntry → Bool)
    (ht : ∀ l ∈ e.log, l.pair = p → t l = true) :
    a.Keeps (({ e with pairs := e.pairs.set p r }.writePair x p).logRemove x t) := by
  have w (e : Engine) (r : ByPair PairRecord) :
      ({ e with pairs := r }.writePair x p).log = e.log ∧ ({ e with pairs := r }.writePair x p).pairs = r :=
    ⟨rfl, rfl⟩
  have k := Engine.logRemove_log x ({ e with pairs := e.pairs.set p r }.writePair x p) t
  rw [(w e _).1, (w e _).2] at k
  obtain ⟨held, log, -, desks, closes, queue, notices, inProgress, lastWord⟩ :=
    Engine.Keeps.logRemove (x := x) (Engine.Keeps.writePair (x := x) (Engine.Keeps.refl { e with pairs := e.pairs.set p r }) p) t
  refine h.trans ⟨held, log, fun c m hm => ?_, desks, closes, queue, notices, inProgress, lastWord⟩
  rw [k.1, List.mem_filter] at hm
  rw [k.2, ByPair.get_set]
  split
  · rename_i hp
    simp [ht m hm.1 hp] at hm
  · exact c m hm.1

theorem Engine.Keeps.pairChange {x : Front} (h : a.Keeps e) (d : Drive) : a.Keeps (e.pairChange x d) := by
  dsimp only [Engine.pairChange]
  split
  · exact h.repair _ _ _ fun l _ hl => by simp [LogEntry.ofPair, hl]
  · exact h

/-- A DETACH that was not refused: every entry of the pair is good on the drive's side (R16, R74). -/
theorem Engine.Keeps.pairDetach {x : Front} (h : a.Keeps e) (d : Drive)
    (hd : ∀ l ∈ e.log, l.pair = d.pair → l.good = d.side) : a.Keeps (e.pairDetach x d) := by
  dsimp only [Engine.pairDetach]
  exact h.repair _ _ _ fun l hl hp => by simp [hp, hd l hl hp]

theorem Engine.Keeps.pairAttach {x : Front} (h : a.Keeps e) (p : PairId) : a.Keeps (e.pairAttach x p) := by
  dsimp only [Engine.pairAttach]
  refine Engine.Keeps.writePair ?_ _
  refine (h.mapHeld _ fun o => by split <;> rfl).updPairs _ fun c m hm => ?_
  rw [ByPair.get_set]
  split
  · exact PairMode.noConfusion
  · exact c m hm

theorem Engine.Keeps.setBack (h : a.Keeps e) (p : PairId) (track : Nat) : a.Keeps (e.setBack p track) := by
  dsimp only [Engine.setBack]
  split
  · exact h.mapHeld _ fun o => by split <;> rfl
  · exact h

theorem Engine.Keeps.decideFinish {x : Front} (h : a.Keeps e) (slot : Nat) (code : FinishCode) (late : Bool) :
    a.Keeps (e.decideFinish x slot code late) := by
  dsimp only [Engine.decideFinish]
  repeat' first
    | assumption
    | split
    | with_reducible apply Engine.Keeps.unreserve
    | with_reducible apply Engine.Keeps.updOrder
    | with_reducible apply Engine.Keeps.writeResults
    | with_reducible apply Engine.Keeps.writePhase
    | exact fun _ => rfl

theorem Engine.Keeps.backToStanding {x : Front} (h : a.Keeps e) (slot : Nat) (code : FinishCode) :
    a.Keeps (e.backToStanding x slot code) := by
  dsimp only [Engine.backToStanding]
  repeat' first
    | assumption
    | split
    | with_reducible apply Engine.Keeps.unreserve
    | with_reducible apply Engine.Keeps.updOrder
    | with_reducible apply Engine.Keeps.writeResults
    | with_reducible apply Engine.Keeps.writePhase
    | exact fun _ => rfl

theorem Engine.Keeps.requeueMend {x : Front} (h : a.Keeps e) (slot : Nat) :
    a.Keeps (e.requeueMend x slot) := by
  dsimp only [Engine.requeueMend]
  repeat' first
    | assumption
    | split
    | with_reducible apply Engine.Keeps.toTail
    | with_reducible apply Engine.Keeps.updOrder
    | with_reducible apply Engine.Keeps.writePhase
    | exact fun _ => rfl

theorem Engine.Keeps.endTurn {x : Front} (h : a.Keeps e) (o : Order) :
    a.Keeps (e.endTurn x o) := by
  dsimp only [Engine.endTurn]
  repeat' first
    | assumption
    | split
    | with_reducible apply Engine.Keeps.run
    | with_reducible apply Engine.Keeps.requeueMend
    | with_reducible apply Engine.Keeps.decideFinish
    | with_reducible apply Engine.Keeps.pairAttach
    | with_reducible apply Engine.Keeps.updOrder
    | exact fun _ => rfl

theorem Engine.Keeps.endRun {x : Front} (h : a.Keeps e) (slot : Nat) :
    a.Keeps (e.endRun x slot) := by
  dsimp only [Engine.endRun]
  repeat' first
    | assumption
    | split
    | with_reducible apply Engine.Keeps.resolveRest
    | with_reducible apply Engine.Keeps.updOrder
    | with_reducible apply Engine.Keeps.endTurn
    | with_reducible apply Engine.Keeps.run
    | with_reducible apply Engine.Keeps.backToStanding
    | with_reducible apply Engine.Keeps.decideFinish
    | exact fun _ => rfl

theorem Engine.Keeps.deselect {x : Front} (h : a.Keeps e) (c : Side) (survey : Bool) (notice : Option Notice) :
    a.Keeps (e.deselect x c survey notice) := by
  dsimp only [Engine.deselect]
  repeat' first
    | assumption
    | split
    | with_reducible apply Engine.Keeps.setChan
    | with_reducible apply Engine.Keeps.setTimer
    | with_reducible apply Engine.Keeps.setDrive
    | with_reducible apply Engine.Keeps.writeStatus

theorem Engine.Keeps.toIdle {x : Front} (h : a.Keeps e) (c : Side) :
    a.Keeps (e.toIdle x c) := by
  dsimp only [Engine.toIdle]
  repeat' first
    | assumption
    | split
    | with_reducible apply Engine.Keeps.updChan
    | with_reducible apply Engine.Keeps.enter

theorem Engine.Keeps.release {x : Front} (h : a.Keeps e) (c : Side) :
    a.Keeps (e.release x c) := by
  dsimp only [Engine.release]
  repeat' first
    | assumption
    | split
    | with_reducible apply Engine.Keeps.deselect
    | with_reducible apply Engine.Keeps.toIdle
    | with_reducible apply Engine.Keeps.endRun

theorem Engine.Keeps.rest (h : a.Keeps e) (c : Side) : a.Keeps (e.rest c) := by
  dsimp only [Engine.rest]
  exact h.updChan c _

theorem Engine.Keeps.tryClean {x : Front} (h : a.Keeps e) (c : Side) :
    a.Keeps (e.tryClean x c) := by
  dsimp only [Engine.tryClean]
  repeat' first
    | assumption
    | with_reducible apply Engine.Keeps.rest
    | split
    | with_reducible apply Engine.Keeps.release

theorem Engine.Keeps.stopChannel {x : Front} (h : a.Keeps e) (c : Side) (slot : Nat) :
    a.Keeps (e.stopChannel x c slot) := by
  dsimp only [Engine.stopChannel]
  repeat' first
    | assumption
    | split
    | with_reducible apply Engine.Keeps.updChan
    | with_reducible apply Engine.Keeps.tryClean

theorem Engine.Keeps.stopOrder {x : Front} (h : a.Keeps e) (slot : Nat) :
    a.Keeps (e.stopOrder x slot) := by
  dsimp only [Engine.stopOrder]
  repeat' first
    | assumption
    | split
    | with_reducible apply Engine.Keeps.stopChannel

theorem Engine.Keeps.freeWaiter {x : Front} (h : a.Keeps e) (c : Side) (slot : Nat) :
    a.Keeps (e.freeWaiter x c slot) := by
  dsimp only [Engine.freeWaiter]
  repeat' first
    | assumption
    | split
    | with_reducible apply Engine.Keeps.updChan
    | with_reducible apply Engine.Keeps.tryClean

theorem Engine.Keeps.finishWaiting {x : Front} (h : a.Keeps e) (slot : Nat) (code : FinishCode) (late : Bool) :
    a.Keeps (e.finishWaiting x slot code late) := by
  dsimp only [Engine.finishWaiting]
  repeat' first
    | assumption
    | split
    | with_reducible apply Engine.Keeps.decideFinish
    | with_reducible apply Engine.Keeps.freeWaiter

theorem Engine.Keeps.setPending {x : Front} (h : a.Keeps e) (slot : Nat) (code : FinishCode) (pl : Place) :
    a.Keeps (e.setPending x slot code pl) := by
  dsimp only [Engine.setPending]
  repeat' first
    | assumption
    | split
    | with_reducible apply Engine.Keeps.updOrder
    | with_reducible apply Engine.Keeps.stopOrder
    | exact fun _ => rfl

theorem Engine.Keeps.resolve {x : Front} (h : a.Keeps e) (slot : Nat) (i : Nat) :
    a.Keeps (e.resolve x slot i) := by
  have k := h.resolveOnce (x := x) slot i false
  dsimp only [Engine.resolve]
  split
  · exact h
  · split
    · rename_i heq; rw [heq] at k; exact k
    · rename_i heq; rw [heq] at k; exact k.setPending _ _ _

theorem Engine.Keeps.resolveAll {x : Front} (h : a.Keeps e) (slot : Nat) :
    a.Keeps (e.resolveAll x slot) := by
  dsimp only [Engine.resolveAll]
  repeat' first
    | assumption
    | split
    | with_reducible apply Engine.Keeps.resolve
    | (apply Engine.Keeps.foldl; intro e i h)

theorem Engine.Keeps.failSide {x : Front} (h : a.Keeps e) (c : Side) (code : FinishCode) :
    a.Keeps (e.failSide x c code) := by
  dsimp only [Engine.failSide]
  repeat' first
    | assumption
    | split
    | with_reducible apply Engine.Keeps.updChan
    | with_reducible apply Engine.Keeps.run
    | with_reducible apply Engine.Keeps.updOrder
    | with_reducible apply Engine.Keeps.setPending
    | with_reducible apply Engine.Keeps.resolveAll
    | with_reducible apply Engine.Keeps.release
    | exact fun _ => rfl

theorem Engine.Keeps.headUnloaded {x : Front} (h : a.Keeps e) (d : Drive) :
    a.Keeps (e.headUnloaded x d) := by
  dsimp only [Engine.headUnloaded]
  repeat' first
    | assumption
    | split
    | with_reducible apply Engine.Keeps.updDrive

end Sys2Proof.Machine
end

