-- ==== Sys2Proof/Laws/KeepsChannels.lean ====
section
/-! SUPPORT. What the operations of the engine leave as it is (`Engine.Keeps`): the drive lines, positioning, passes and sectors. -/

namespace Sys2Proof.Machine

variable {a e : Engine}

theorem Engine.Keeps.setSurvey {x : Front} (h : a.Keeps e) (v : Survey) :
    a.Keeps (e.setSurvey x v) := by
  dsimp only [Engine.setSurvey]
  repeat' first
    | assumption
    | split
    | with_reducible apply Engine.Keeps.writeSurvey
    | apply Engine.Keeps.updSurvey

theorem Engine.Keeps.endSurveyStep {x : Front} (h : a.Keeps e) (c : Side) :
    a.Keeps (e.endSurveyStep x c) := by
  dsimp only [Engine.endSurveyStep]
  repeat' first
    | assumption
    | split
    | with_reducible apply Engine.Keeps.setDrive
    | with_reducible apply Engine.Keeps.deselect
    | with_reducible apply Engine.Keeps.toIdle
    | with_reducible apply Engine.Keeps.setSurvey

theorem Engine.Keeps.holdFailure {x : Front} (h : a.Keeps e) (c : Side) (code : FinishCode) :
    a.Keeps (e.holdFailure x c code) := by
  dsimp only [Engine.holdFailure]
  repeat' first
    | assumption
    | split
    | with_reducible apply Engine.Keeps.deselect
    | with_reducible apply Engine.Keeps.updChan

theorem Engine.Keeps.leaveReady {x : Front} (h : a.Keeps e) (d : Drive) (code : FinishCode) :
    a.Keeps (e.leaveReady x d code) := by
  dsimp only [Engine.leaveReady]
  repeat' first
    | assumption
    | split
    | with_reducible apply Engine.Keeps.endSurveyStep
    | with_reducible apply Engine.Keeps.tryClean
    | with_reducible apply Engine.Keeps.holdFailure
    | with_reducible apply Engine.Keeps.failSide

theorem Engine.Keeps.meetChange {x : Front} (h : a.Keeps e) (d : Drive) (slot : Nat) :
    a.Keeps (e.meetChange x d slot) := by
  dsimp only [Engine.meetChange]
  repeat' first
    | assumption
    | split
    | with_reducible apply Engine.Keeps.finishWaiting
    | with_reducible apply Engine.Keeps.updOrder
    | with_reducible apply Engine.Keeps.stopOrder
    | exact fun _ => rfl

theorem Engine.Keeps.rosterChange {x : Front} (h : a.Keeps e) (d : Drive) :
    a.Keeps (e.rosterChange x d) := by
  dsimp only [Engine.rosterChange]
  repeat' first
    | assumption
    | split
    | with_reducible apply Engine.Keeps.meetChange
    | (apply Engine.Keeps.foldl; intro e i h)

theorem Engine.Keeps.mediumChange {x : Front} (h : a.Keeps e) (d : Drive) :
    a.Keeps (e.mediumChange x d) := by
  dsimp only [Engine.mediumChange]
  repeat' first
    | assumption
    | split
    | with_reducible apply Engine.Keeps.setDrive
    | with_reducible apply Engine.Keeps.rosterChange
    | with_reducible apply Engine.Keeps.pairChange
    | with_reducible apply Engine.Keeps.writeStatus

theorem Engine.Keeps.setState {x : Front} (h : a.Keeps e) (d : Drive) (st : DriveState) (tell : Bool) :
    a.Keeps (e.setState x d st tell) := by
  dsimp only [Engine.setState]
  repeat' first
    | assumption
    | split
    | with_reducible apply Engine.Keeps.setDrive
    | with_reducible apply Engine.Keeps.writeStatus

theorem Engine.Keeps.takeLevel {x : Front} (h : a.Keeps e) (d : Drive) (level : Bool) :
    a.Keeps (e.takeLevel x d level) := by
  dsimp only [Engine.takeLevel]
  repeat' first
    | assumption
    | split
    | with_reducible apply Engine.Keeps.setDrive
    | with_reducible apply Engine.Keeps.setState
    | with_reducible apply Engine.Keeps.mediumChange
    | with_reducible apply Engine.Keeps.leaveReady

theorem Engine.Keeps.sampleReady {x : Front} (h : a.Keeps e) (d : Drive) (level : Bool) :
    a.Keeps (e.sampleReady x d level) := by
  dsimp only [Engine.sampleReady]
  repeat' first
    | assumption
    | split
    | with_reducible apply Engine.Keeps.setDrive
    | with_reducible apply Engine.Keeps.takeLevel

theorem Engine.Keeps.sampleFlags {x : Front} (h : a.Keeps e) (d : Drive) (l : Lines) :
    a.Keeps (e.sampleFlags x d l) := by
  dsimp only [Engine.sampleFlags]
  repeat' first
    | assumption
    | split
    | with_reducible apply Engine.Keeps.updDrive

theorem Engine.Keeps.sampleChange {x : Front} (h : a.Keeps e) (d : Drive) (l : Lines) :
    a.Keeps (e.sampleChange x d l) := by
  dsimp only [Engine.sampleChange]
  repeat' first
    | assumption
    | split
    | with_reducible apply Engine.Keeps.changeDrive
    | with_reducible apply Engine.Keeps.mediumChange

theorem Engine.Keeps.selectionSample {x : Front} (h : a.Keeps e) (d : Drive) :
    a.Keeps (e.selectionSample x d) := by
  dsimp only [Engine.selectionSample]
  repeat' first
    | assumption
    | split
    | with_reducible apply Engine.Keeps.sampleChange
    | with_reducible apply Engine.Keeps.sampleReady
    | with_reducible apply Engine.Keeps.sampleFlags

theorem Engine.Keeps.select {x : Front} (h : a.Keeps e) (c : Side) (p : PairId) (survey : Bool) :
    a.Keeps (e.select x c p survey) := by
  dsimp only [Engine.select]
  repeat' first
    | assumption
    | split
    | with_reducible apply Engine.Keeps.updChan
    | with_reducible apply Engine.Keeps.setTimer
    | with_reducible apply Engine.Keeps.setDrive
    | with_reducible apply Engine.Keeps.selectionSample

theorem Engine.Keeps.speedFault {x : Front} (h : a.Keeps e) (d : Drive) :
    a.Keeps (e.speedFault x d) := by
  dsimp only [Engine.speedFault]
  repeat' first
    | assumption
    | split
    | with_reducible apply Engine.Keeps.setState
    | with_reducible apply Engine.Keeps.leaveReady

theorem Engine.Keeps.judgePeriod {x : Front} (h : a.Keeps e) (d : Drive) (n : Nat) :
    a.Keeps (e.judgePeriod x d n) := by
  dsimp only [Engine.judgePeriod]
  repeat' first
    | assumption
    | split
    | with_reducible apply Engine.Keeps.setDrive
    | with_reducible apply Engine.Keeps.speedFault
    | with_reducible apply Engine.Keeps.setState

theorem Engine.Keeps.countPulse {x : Front} (h : a.Keeps e) (d : Drive) (elapsed : Nat) :
    a.Keeps (e.countPulse x d elapsed) := by
  dsimp only [Engine.countPulse]
  repeat' first
    | assumption
    | split
    | with_reducible apply Engine.Keeps.setDrive
    | with_reducible apply Engine.Keeps.judgePeriod

theorem Engine.Keeps.setAct (h : a.Keeps e) (c : Side) (v : Act) : a.Keeps (e.setAct c v) := h.updChan _ _

theorem Engine.Keeps.updPositioning (h : a.Keeps e) (c : Side) (f : Positioning → Positioning) :
    a.Keeps (e.updPositioning c f) := by
  dsimp only [Engine.updPositioning]
  repeat' first
    | assumption
    | split
    | with_reducible apply Engine.Keeps.updChan

theorem Engine.Keeps.updRun (h : a.Keeps e) (c : Side) (f : Run → Run) :
    a.Keeps (e.updRun c f) := by
  dsimp only [Engine.updRun]
  repeat' first
    | assumption
    | split
    | with_reducible apply Engine.Keeps.updChan

theorem Engine.Keeps.failPositioning {x : Front} (h : a.Keeps e) (c : Side) (code : FinishCode) :
    a.Keeps (e.failPositioning x c code) := by
  dsimp only [Engine.failPositioning]
  repeat' first
    | assumption
    | split
    | with_reducible apply Engine.Keeps.holdFailure
    | with_reducible apply Engine.Keeps.failSide

theorem Engine.Keeps.beginConfirm (h : a.Keeps e) (c : Side) :
    a.Keeps (e.beginConfirm c) := by
  dsimp only [Engine.beginConfirm]
  repeat' first
    | assumption
    | split
    | with_reducible apply Engine.Keeps.updChan

theorem Engine.Keeps.settled {x : Front} (h : a.Keeps e) (c : Side) :
    a.Keeps (e.settled x c) := by
  dsimp only [Engine.settled]
  repeat' first
    | assumption
    | split
    | with_reducible apply Engine.Keeps.beginConfirm
    | with_reducible apply Engine.Keeps.updChan
    | with_reducible apply Engine.Keeps.setAct
    | with_reducible apply Engine.Keeps.release

theorem Engine.Keeps.arrived {x : Front} (h : a.Keeps e) (c : Side) :
    a.Keeps (e.arrived x c) := by
  dsimp only [Engine.arrived]
  repeat' first
    | assumption
    | split
    | with_reducible apply Engine.Keeps.setAct
    | with_reducible apply Engine.Keeps.settled

theorem Engine.Keeps.beginSeek {x : Front} (h : a.Keeps e) (c : Side) :
    a.Keeps (e.beginSeek x c) := by
  dsimp only [Engine.beginSeek]
  repeat' first
    | assumption
    | split
    | with_reducible apply Engine.Keeps.arrived
    | with_reducible apply Engine.Keeps.updChan

theorem Engine.Keeps.sampleTrack0 {x : Front} (h : a.Keeps e) (d : Drive) (level : Bool) :
    a.Keeps (e.sampleTrack0 x d level) := by
  dsimp only [Engine.sampleTrack0]
  repeat' first
    | assumption
    | split
    | with_reducible apply Engine.Keeps.changeDrive

theorem Engine.Keeps.atTrack0 {x : Front} (h : a.Keeps e) (d : Drive) :
    a.Keeps (e.atTrack0 x d) := by
  dsimp only [Engine.atTrack0]
  repeat' first
    | assumption
    | split
    | with_reducible apply Engine.Keeps.updDrive

theorem Engine.Keeps.beginRecalibrate {x : Front} (h : a.Keeps e) (c : Side) :
    a.Keeps (e.beginRecalibrate x c) := by
  dsimp only [Engine.beginRecalibrate]
  repeat' first
    | assumption
    | split
    | with_reducible apply Engine.Keeps.updDrive
    | with_reducible apply Engine.Keeps.updChan
    | with_reducible apply Engine.Keeps.sampleTrack0
    | with_reducible apply Engine.Keeps.atTrack0
    | with_reducible apply Engine.Keeps.beginSeek

theorem Engine.Keeps.startPositioning {x : Front} (h : a.Keeps e) (c : Side) (why : PosWhy) (target surface : Nat) (forced : Bool) :
    a.Keeps (e.startPositioning x c why target surface forced) := by
  dsimp only [Engine.startPositioning]
  repeat' first
    | assumption
    | split
    | with_reducible apply Engine.Keeps.updChan
    | with_reducible apply Engine.Keeps.run
    | with_reducible apply Engine.Keeps.beginRecalibrate
    | with_reducible apply Engine.Keeps.beginSeek

theorem Engine.Keeps.recalibrateStep {x : Front} (h : a.Keeps e) (c : Side) (d : Drive) (level : Bool) :
    a.Keeps (e.recalibrateStep x c d level) := by
  dsimp only [Engine.recalibrateStep]
  repeat' first
    | assumption
    | split
    | with_reducible apply Engine.Keeps.sampleTrack0
    | with_reducible apply Engine.Keeps.atTrack0
    | with_reducible apply Engine.Keeps.setAct
    | with_reducible apply Engine.Keeps.tryClean
    | with_reducible apply Engine.Keeps.beginSeek
    | with_reducible apply Engine.Keeps.failPositioning
    | with_reducible apply Engine.Keeps.updPositioning

theorem Engine.Keeps.seekStep {x : Front} (h : a.Keeps e) (c : Side) (d : Drive) :
    a.Keeps (e.seekStep x c d) := by
  dsimp only [Engine.seekStep]
  repeat' first
    | assumption
    | split
    | with_reducible apply Engine.Keeps.changeDrive
    | with_reducible apply Engine.Keeps.setAct
    | with_reducible apply Engine.Keeps.tryClean
    | with_reducible apply Engine.Keeps.beginSeek

theorem Engine.Keeps.stepEnd {x : Front} (h : a.Keeps e) (c : Side) (trk0 : Bool) :
    a.Keeps (e.stepEnd x c trk0) := by
  dsimp only [Engine.stepEnd]
  repeat' first
    | assumption
    | split
    | with_reducible apply Engine.Keeps.recalibrateStep
    | with_reducible apply Engine.Keeps.seekStep

theorem Engine.Keeps.settleEnd {x : Front} (h : a.Keeps e) (c : Side) :
    a.Keeps (e.settleEnd x c) := by
  dsimp only [Engine.settleEnd]
  repeat' first
    | assumption
    | split
    | with_reducible apply Engine.Keeps.settled

theorem Engine.Keeps.loadEnd {x : Front} (h : a.Keeps e) (c : Side) :
    a.Keeps (e.loadEnd x c) := by
  dsimp only [Engine.loadEnd]
  repeat' first
    | assumption
    | split
    | with_reducible apply Engine.Keeps.updDrive
    | with_reducible apply Engine.Keeps.beginConfirm

theorem Engine.Keeps.confirmDiffers {x : Front} (h : a.Keeps e) (c : Side) :
    a.Keeps (e.confirmDiffers x c) := by
  dsimp only [Engine.confirmDiffers]
  repeat' first
    | assumption
    | split
    | with_reducible apply Engine.Keeps.setAct
    | with_reducible apply Engine.Keeps.updDrive
    | with_reducible apply Engine.Keeps.failPositioning
    | with_reducible apply Engine.Keeps.updPositioning
    | with_reducible apply Engine.Keeps.beginRecalibrate

theorem Engine.Keeps.updItem (h : a.Keeps e) (c : Side) (pos : Nat) (f : Item → Item) :
    a.Keeps (e.updItem c pos f) := by
  dsimp only [Engine.updItem]
  repeat' first
    | assumption
    | split
    | with_reducible apply Engine.Keeps.updRun

theorem Engine.Keeps.searchAnew (h : a.Keeps e) (c : Side) :
    a.Keeps (e.searchAnew c) := by
  dsimp only [Engine.searchAnew]
  repeat' first
    | assumption
    | split
    | with_reducible apply Engine.Keeps.updRun

theorem Engine.Keeps.fillBuffer {x : Front} (h : a.Keeps e) (c : Side) (b : Side) :
    a.Keeps (e.fillBuffer x c b) := by
  dsimp only [Engine.fillBuffer]
  repeat' first
    | assumption
    | split
    | with_reducible apply Engine.Keeps.run
    | with_reducible apply Engine.Keeps.setChan

theorem Engine.Keeps.fillBuffers {x : Front} (h : a.Keeps e) (c : Side) :
    a.Keeps (e.fillBuffers x c) := by
  dsimp only [Engine.fillBuffers]
  repeat' first
    | assumption
    | split
    | with_reducible apply Engine.Keeps.fillBuffer

theorem Engine.Keeps.countRetry (h : a.Keeps e) (slot : Nat) :
    a.Keeps (e.countRetry slot) := by
  dsimp only [Engine.countRetry]
  repeat' first
    | assumption
    | split
    | with_reducible apply Engine.Keeps.updOrder
    | exact fun _ => rfl

theorem Engine.Keeps.countMissed (h : a.Keeps e) (slot : Nat) :
    a.Keeps (e.countMissed slot) := by
  dsimp only [Engine.countMissed]
  repeat' first
    | assumption
    | split
    | with_reducible apply Engine.Keeps.updOrder
    | exact fun _ => rfl

theorem Engine.Keeps.countRetired (h : a.Keeps e) (slot : Nat) :
    a.Keeps (e.countRetired slot) := by
  dsimp only [Engine.countRetired]
  repeat' first
    | assumption
    | split
    | with_reducible apply Engine.Keeps.updOrder
    | exact fun _ => rfl

theorem Engine.Keeps.countDone (h : a.Keeps e) (slot : Nat) :
    a.Keeps (e.countDone slot) := by
  dsimp only [Engine.countDone]
  repeat' first
    | assumption
    | split
    | with_reducible apply Engine.Keeps.updOrder
    | exact fun _ => rfl

theorem Engine.Keeps.mark (h : a.Keeps e) (slot : Nat) (c : Side) (pos : Nat) (v : Entry) :
    a.Keeps (e.mark slot c pos v) := by
  dsimp only [Engine.mark]
  repeat' first
    | assumption
    | split
    | with_reducible apply Engine.Keeps.updOrder
    | exact fun _ => rfl

theorem Engine.Keeps.sectorDone {x : Front} (h : a.Keeps e) (o : Order) (c : Side) (pos : Nat) :
    a.Keeps (e.sectorDone x o c pos) := by
  dsimp only [Engine.sectorDone]
  repeat' first
    | assumption
    | split
    | with_reducible apply Engine.Keeps.mark
    | with_reducible apply Engine.Keeps.resolve
    | with_reducible apply Engine.Keeps.countDone

theorem Engine.Keeps.formatDone (h : a.Keeps e) (c : Side) (o : Order) (pos : Nat) :
    a.Keeps (e.formatDone c o pos) := by
  dsimp only [Engine.formatDone]
  repeat' first
    | assumption
    | split
    | with_reducible apply Engine.Keeps.countDone
    | with_reducible apply Engine.Keeps.mark

theorem Engine.Keeps.enterTrack {x : Front} (h : a.Keeps e) (c : Side) (o : Order) (track : Nat) :
    a.Keeps (e.enterTrack x c o track) := by
  dsimp only [Engine.enterTrack]
  repeat' first
    | assumption
    | split
    | with_reducible apply Engine.Keeps.updChan
    | with_reducible apply Engine.Keeps.run
    | with_reducible apply Engine.Keeps.fillBuffers

theorem Engine.Keeps.goToTrack {x : Front} (h : a.Keeps e) (c : Side) (o : Order) (track : Nat) (why : PosWhy) (forced : Bool) :
    a.Keeps (e.goToTrack x c o track why forced) := by
  dsimp only [Engine.goToTrack]
  repeat' first
    | assumption
    | split
    | with_reducible apply Engine.Keeps.enter
    | with_reducible apply Engine.Keeps.startPositioning

theorem Engine.Keeps.recover {x : Front} (h : a.Keeps e) (c : Side) (o : Order) :
    a.Keeps (e.recover x c o) := by
  dsimp only [Engine.recover]
  repeat' first
    | assumption
    | split
    | with_reducible apply Engine.Keeps.goToTrack

theorem Engine.Keeps.formatFailed {x : Front} (h : a.Keeps e) (c : Side) (o : Order) :
    a.Keeps (e.formatFailed x c o) := by
  dsimp only [Engine.formatFailed]
  repeat' first
    | assumption
    | split
    | with_reducible apply Engine.Keeps.run
    | with_reducible apply Engine.Keeps.setAct
    | with_reducible apply Engine.Keeps.mark
    | with_reducible apply Engine.Keeps.resolveAll
    | with_reducible apply Engine.Keeps.setPending
    | (apply Engine.Keeps.foldl; intro e i h)

theorem Engine.Keeps.formatVerified {x : Front} (h : a.Keeps e) (c : Side) (o : Order) :
    a.Keeps (e.formatVerified x c o).1 := by
  dsimp only [Engine.formatVerified]
  repeat' first
    | assumption
    | split
    | with_reducible apply Engine.Keeps.run
    | with_reducible apply Engine.Keeps.updRun
    | with_reducible apply Engine.Keeps.recover
    | with_reducible apply Engine.Keeps.countRetry
    | with_reducible apply Engine.Keeps.enter
    | with_reducible apply Engine.Keeps.setAct
    | with_reducible apply Engine.Keeps.formatFailed
    | with_reducible apply Engine.Keeps.resolveAll

theorem Engine.Keeps.leaveTrack {x : Front} (h : a.Keeps e) (c : Side) (o : Order) :
    a.Keeps (e.leaveTrack x c o) := by
  dsimp only [Engine.leaveTrack]
  repeat' first
    | assumption
    | split
    | with_reducible apply Engine.Keeps.enter
    | with_reducible apply Engine.Keeps.run
    | with_reducible apply Engine.Keeps.release
    | with_reducible apply Engine.Keeps.updChan
    | with_reducible apply Engine.Keeps.failSide
    | with_reducible apply Engine.Keeps.enterTrack
    | with_reducible apply Engine.Keeps.goToTrack

theorem Engine.Keeps.enterVerify {x : Front} (h : a.Keeps e) (c : Side) :
    a.Keeps (e.enterVerify x c) := by
  dsimp only [Engine.enterVerify]
  repeat' first
    | assumption
    | split
    | with_reducible apply Engine.Keeps.enter
    | with_reducible apply Engine.Keeps.updChan
    | with_reducible apply Engine.Keeps.run
    | with_reducible apply Engine.Keeps.searchAnew

theorem Engine.Keeps.backToTrack {x : Front} (h : a.Keeps e) (c : Side) :
    a.Keeps (e.backToTrack x c) := by
  dsimp only [Engine.backToTrack]
  repeat' first
    | assumption
    | split
    | with_reducible apply Engine.Keeps.enter
    | with_reducible apply Engine.Keeps.updChan
    | with_reducible apply Engine.Keeps.run
    | with_reducible apply Engine.Keeps.searchAnew

theorem Engine.Keeps.passEnd {x : Front} (h : a.Keeps e) (c : Side) (o : Order) :
    a.Keeps (e.passEnd x c o) := by
  have k := h.formatVerified (x := x) c o
  dsimp only [Engine.passEnd]
  repeat' first
    | assumption
    | split
    | with_reducible apply Engine.Keeps.enterVerify
    | with_reducible apply Engine.Keeps.leaveTrack
    | with_reducible apply Engine.Keeps.stopOrder
    | with_reducible apply Engine.Keeps.backToTrack
  all_goals (rename_i heq; rw [heq] at k)
  · exact k.release _
  · exact k

theorem Engine.Keeps.goOn {x : Front} (n : Nat) (c : Side) : ∀ {e : Engine}, a.Keeps e →
    a.Keeps (Engine.goOn x n e c) := by
  induction n with
  | zero => exact fun h => h
  | succ n ih =>
    intro e h
    dsimp only [Engine.goOn]
    repeat' first
      | assumption
      | split
      | with_reducible apply Engine.Keeps.tryClean
      | with_reducible apply ih
      | with_reducible apply Engine.Keeps.passEnd

theorem Engine.Keeps.carryOn {x : Front} (h : a.Keeps e) (c : Side) : a.Keeps (e.carryOn x c) :=
  Engine.Keeps.goOn 8 c h

theorem Engine.Keeps.startSide {x : Front} (h : a.Keeps e) (c : Side) (o : Order) :
    a.Keeps (e.startSide x c o) := by
  dsimp only [Engine.startSide]
  repeat' first
    | assumption
    | split
    | with_reducible apply Engine.Keeps.enter
    | with_reducible apply Engine.Keeps.failSide
    | with_reducible apply Engine.Keeps.run
    | with_reducible apply Engine.Keeps.updRun
    | with_reducible apply Engine.Keeps.enterTrack
    | with_reducible apply Engine.Keeps.carryOn

theorem Engine.Keeps.resume {x : Front} (h : a.Keeps e) (c : Side) (o : Order) :
    a.Keeps (e.resume x c o) := by
  dsimp only [Engine.resume]
  repeat' first
    | assumption
    | split
    | with_reducible apply Engine.Keeps.countRetry
    | with_reducible apply Engine.Keeps.enter
    | with_reducible apply Engine.Keeps.run
    | with_reducible apply Engine.Keeps.setAct
    | with_reducible apply Engine.Keeps.searchAnew
    | with_reducible apply Engine.Keeps.fillBuffers
    | with_reducible apply Engine.Keeps.carryOn

theorem Engine.Keeps.confirmed {x : Front} (h : a.Keeps e) (c : Side) :
    a.Keeps (e.confirmed x c) := by
  dsimp only [Engine.confirmed]
  repeat' first
    | assumption
    | split
    | with_reducible apply Engine.Keeps.enter
    | with_reducible apply Engine.Keeps.setAct
    | with_reducible apply Engine.Keeps.start
    | with_reducible apply Engine.Keeps.startSide
    | with_reducible apply Engine.Keeps.failSide
    | with_reducible apply Engine.Keeps.enterTrack
    | with_reducible apply Engine.Keeps.carryOn
    | with_reducible apply Engine.Keeps.recover
    | with_reducible apply Engine.Keeps.resume

theorem Engine.Keeps.sectorFailed {x : Front} (h : a.Keeps e) (c : Side) (o : Order) (it : Item) (code : FinishCode) :
    a.Keeps (e.sectorFailed x c o it code) := by
  dsimp only [Engine.sectorFailed]
  repeat' first
    | assumption
    | split
    | with_reducible apply Engine.Keeps.updItem
    | with_reducible apply Engine.Keeps.updChan
    | with_reducible apply Engine.Keeps.run
    | with_reducible apply Engine.Keeps.setPending
    | with_reducible apply Engine.Keeps.mark
    | with_reducible apply Engine.Keeps.resolve
    | with_reducible apply Engine.Keeps.fillBuffers

theorem Engine.Keeps.readAgain (h : a.Keeps e) (c : Side) (sector : Nat) :
    a.Keeps (e.readAgain c sector) := by
  dsimp only [Engine.readAgain]
  repeat' first
    | assumption
    | split
    | with_reducible apply Engine.Keeps.updRun

theorem Engine.Keeps.attemptFailed {x : Front} (h : a.Keeps e) (c : Side) (o : Order) (it : Item) (code : FinishCode) :
    a.Keeps (e.attemptFailed x c o it code) := by
  dsimp only [Engine.attemptFailed]
  repeat' first
    | assumption
    | split
    | with_reducible apply Engine.Keeps.setAct
    | with_reducible apply Engine.Keeps.mark
    | with_reducible apply Engine.Keeps.updItem
    | with_reducible apply Engine.Keeps.carryOn
    | with_reducible apply Engine.Keeps.tryClean
    | with_reducible apply Engine.Keeps.readAgain
    | with_reducible apply Engine.Keeps.recover
    | with_reducible apply Engine.Keeps.countRetry
    | with_reducible apply Engine.Keeps.fillBuffers
    | with_reducible apply Engine.Keeps.sectorFailed

theorem Engine.Keeps.noteBadId (h : a.Keeps e) (c : Side) (k : Kind) :
    a.Keeps (e.noteBadId c k) := by
  dsimp only [Engine.noteBadId]
  repeat' first
    | assumption
    | split
    | with_reducible apply Engine.Keeps.updRun

theorem Engine.Keeps.keepId (h : a.Keeps e) (c : Side) (d : Drive) (id : IdRead) :
    a.Keeps (e.keepId c d id) := by
  dsimp only [Engine.keepId]
  repeat' first
    | assumption
    | split
    | with_reducible apply Engine.Keeps.setDrive
    | with_reducible apply Engine.Keeps.updRun

theorem Engine.Keeps.keepFirst (h : a.Keeps e) (c : Side) (id : IdRead) :
    a.Keeps (e.keepFirst c id) := by
  dsimp only [Engine.keepFirst]
  repeat' first
    | assumption
    | split
    | with_reducible apply Engine.Keeps.recover
    | with_reducible apply Engine.Keeps.updRun

theorem Engine.Keeps.beginWrite {x : Front} (h : a.Keeps e) (c : Side) (o : Order) (it : Item) (buf : Option Side) (mark : Byte) (data : List Byte) :
    a.Keeps (e.beginWrite x c o it buf mark data) := by
  dsimp only [Engine.beginWrite]
  repeat' first
    | assumption
    | split
    | with_reducible apply Engine.Keeps.updItem
    | with_reducible apply Engine.Keeps.updChan

theorem Engine.Keeps.passOver (h : a.Keeps e) (c : Side) (o : Order) (it : Item) :
    a.Keeps (e.passOver c o it) := by
  dsimp only [Engine.passOver]
  repeat' first
    | assumption
    | split
    | with_reducible apply Engine.Keeps.countMissed
    | with_reducible apply Engine.Keeps.updItem

theorem Engine.Keeps.beginRead (h : a.Keeps e) (c : Side) (o : Order) (it : Item) :
    a.Keeps (e.beginRead c o it) := by
  dsimp only [Engine.beginRead]
  repeat' first
    | assumption
    | split
    | with_reducible apply Engine.Keeps.passOver
    | with_reducible apply Engine.Keeps.updItem
    | with_reducible apply Engine.Keeps.searchAnew
    | with_reducible apply Engine.Keeps.updChan

theorem Engine.Keeps.arriveWrite {x : Front} (h : a.Keeps e) (c : Side) (o : Order) (it : Item) :
    a.Keeps (e.arriveWrite x c o it) := by
  dsimp only [Engine.arriveWrite]
  repeat' first
    | assumption
    | split
    | with_reducible apply Engine.Keeps.beginWrite
    | with_reducible apply Engine.Keeps.passOver

theorem Engine.Keeps.arrive {x : Front} (h : a.Keeps e) (c : Side) (o : Order) (it : Item) (id : IdRead) :
    a.Keeps (e.arrive x c o it id) := by
  dsimp only [Engine.arrive]
  repeat' first
    | assumption
    | split
    | with_reducible apply Engine.Keeps.attemptFailed
    | with_reducible apply Engine.Keeps.beginRead
    | with_reducible apply Engine.Keeps.arriveWrite
    | with_reducible apply Engine.Keeps.updItem
    | with_reducible apply Engine.Keeps.carryOn
    | with_reducible apply Engine.Keeps.passOver

theorem Engine.Keeps.idInPass {x : Front} (h : a.Keeps e) (c : Side) (o : Order) (id : IdRead) :
    a.Keeps (e.idInPass x c o id) := by
  dsimp only [Engine.idInPass]
  repeat' first
    | assumption
    | split
    | with_reducible apply Engine.Keeps.run
    | with_reducible apply Engine.Keeps.setAct
    | with_reducible apply Engine.Keeps.failSide
    | with_reducible apply Engine.Keeps.updRun
    | with_reducible apply Engine.Keeps.fillBuffers
    | with_reducible apply Engine.Keeps.arrive

theorem Engine.Keeps.readFailed {x : Front} (h : a.Keeps e) (c : Side) (pos : Nat) (buf : Side) :
    a.Keeps (e.readFailed x c pos buf) := by
  dsimp only [Engine.readFailed]
  repeat' first
    | assumption
    | split
    | with_reducible apply Engine.Keeps.updChan
    | with_reducible apply Engine.Keeps.run
    | with_reducible apply Engine.Keeps.attemptFailed
    | with_reducible apply Engine.Keeps.setAct
    | with_reducible apply Engine.Keeps.tryClean

theorem Engine.Keeps.noMarkBeforeId {x : Front} (h : a.Keeps e) (c : Side) :
    a.Keeps (e.noMarkBeforeId x c) := by
  dsimp only [Engine.noMarkBeforeId]
  repeat' first
    | assumption
    | split
    | with_reducible apply Engine.Keeps.readFailed

theorem Engine.Keeps.judgeId {x : Front} (h : a.Keeps e) (c : Side) (bytes : List Byte) :
    a.Keeps (e.judgeId x c bytes) := by
  dsimp only [Engine.judgeId]
  repeat' first
    | assumption
    | split
    | with_reducible apply Engine.Keeps.noteBadId
    | with_reducible apply Engine.Keeps.keepFirst
    | with_reducible apply Engine.Keeps.confirmed
    | with_reducible apply Engine.Keeps.confirmDiffers
    | with_reducible apply Engine.Keeps.idInPass

theorem Engine.Keeps.idPasses {x : Front} (h : a.Keeps e) (c : Side) (bytes : List Byte) :
    a.Keeps (e.idPasses x c bytes) := by
  dsimp only [Engine.idPasses]
  repeat' first
    | assumption
    | split
    | with_reducible apply Engine.Keeps.noMarkBeforeId
    | with_reducible apply Engine.Keeps.keepId
    | with_reducible apply Engine.Keeps.judgeId

theorem Engine.Keeps.idField {x : Front} (h : a.Keeps e) (c : Side) (f : FieldRead) :
    a.Keeps (e.idField x c f) := by
  dsimp only [Engine.idField]
  repeat' first
    | assumption
    | split
    | with_reducible apply Engine.Keeps.idPasses

theorem Engine.Keeps.takeRead {x : Front} (h : a.Keeps e) (c : Side) (o : Order) (pos : Nat) (buf : Side) :
    a.Keeps (e.takeRead x c o pos buf) := by
  dsimp only [Engine.takeRead]
  repeat' first
    | assumption
    | split
    | with_reducible apply Engine.Keeps.mark
    | with_reducible apply Engine.Keeps.updItem
    | with_reducible apply Engine.Keeps.updChan
    | with_reducible apply Engine.Keeps.updOrder
    | exact fun _ => rfl

theorem Engine.Keeps.takeSkipped (h : a.Keeps e) (c : Side) (o : Order) (pos : Nat) (buf : Side) :
    a.Keeps (e.takeSkipped c o pos buf) := by
  dsimp only [Engine.takeSkipped]
  repeat' first
    | assumption
    | split
    | with_reducible apply Engine.Keeps.mark
    | with_reducible apply Engine.Keeps.updItem
    | with_reducible apply Engine.Keeps.updChan
    | with_reducible apply Engine.Keeps.countDone

theorem Engine.Keeps.takeChecked {x : Front} (h : a.Keeps e) (c : Side) (o : Order) (pos : Nat) (buf : Side) :
    a.Keeps (e.takeChecked x c o pos buf) := by
  dsimp only [Engine.takeChecked]
  repeat' first
    | assumption
    | split
    | with_reducible apply Engine.Keeps.updItem
    | with_reducible apply Engine.Keeps.updChan
    | with_reducible apply Engine.Keeps.sectorDone

theorem Engine.Keeps.takeRetiredStop {x : Front} (h : a.Keeps e) (c : Side) (o : Order) (pos : Nat) (buf : Side) :
    a.Keeps (e.takeRetiredStop x c o pos buf) := by
  dsimp only [Engine.takeRetiredStop]
  repeat' first
    | assumption
    | split
    | with_reducible apply Engine.Keeps.updItem
    | with_reducible apply Engine.Keeps.updChan
    | with_reducible apply Engine.Keeps.mark
    | with_reducible apply Engine.Keeps.setPending

theorem Engine.Keeps.takeGood {x : Front} (h : a.Keeps e) (c : Side) (o : Order) (pos : Nat) (buf : Side) (retired : Bool) :
    a.Keeps (e.takeGood x c o pos buf retired) := by
  dsimp only [Engine.takeGood]
  repeat' first
    | assumption
    | split
    | with_reducible apply Engine.Keeps.countRetired
    | with_reducible apply Engine.Keeps.takeRetiredStop
    | with_reducible apply Engine.Keeps.takeChecked
    | with_reducible apply Engine.Keeps.takeSkipped
    | with_reducible apply Engine.Keeps.takeRead

theorem Engine.Keeps.sectorMended {x : Front} (h : a.Keeps e) (c : Side) (o : Order) (it : Item) :
    a.Keeps (e.sectorMended x c o it) := by
  dsimp only [Engine.sectorMended]
  repeat' first
    | assumption
    | split
    | with_reducible apply Engine.Keeps.run
    | with_reducible apply Engine.Keeps.logRemove
    | with_reducible apply Engine.Keeps.countDone

theorem Engine.Keeps.readBack {x : Front} (h : a.Keeps e) (c : Side) (o : Order) (it : Item) :
    a.Keeps (e.readBack x c o it) := by
  dsimp only [Engine.readBack]
  repeat' first
    | assumption
    | split
    | with_reducible apply Engine.Keeps.updItem
    | with_reducible apply Engine.Keeps.sectorMended
    | with_reducible apply Engine.Keeps.formatDone
    | with_reducible apply Engine.Keeps.sectorDone

theorem Engine.Keeps.readOver {x : Front} (h : a.Keeps e) (c : Side) :
    a.Keeps (e.readOver x c) := by
  dsimp only [Engine.readOver]
  repeat' first
    | assumption
    | split
    | with_reducible apply Engine.Keeps.setAct
    | with_reducible apply Engine.Keeps.carryOn

theorem Engine.Keeps.judgeData {x : Front} (h : a.Keeps e) (c : Side) (o : Order) (it : Item) (buf : Side) (bytes : List Byte) :
    a.Keeps (e.judgeData x c o it buf bytes) := by
  dsimp only [Engine.judgeData]
  repeat' first
    | assumption
    | split
    | with_reducible apply Engine.Keeps.updChan
    | with_reducible apply Engine.Keeps.attemptFailed
    | with_reducible apply Engine.Keeps.mark
    | with_reducible apply Engine.Keeps.readBack
    | with_reducible apply Engine.Keeps.carryOn
    | with_reducible apply Engine.Keeps.updItem
    | with_reducible apply Engine.Keeps.setAct
    | with_reducible apply Engine.Keeps.takeGood
    | with_reducible apply Engine.Keeps.readOver

theorem Engine.Keeps.dataField {x : Front} (h : a.Keeps e) (c : Side) (f : FieldRead) :
    a.Keeps (e.dataField x c f) := by
  dsimp only [Engine.dataField]
  repeat' first
    | assumption
    | split
    | with_reducible apply Engine.Keeps.run
    | with_reducible apply Engine.Keeps.judgeData

theorem Engine.Keeps.dataWritten {x : Front} (h : a.Keeps e) (c : Side) :
    a.Keeps (e.dataWritten x c) := by
  dsimp only [Engine.dataWritten]
  repeat' first
    | assumption
    | split
    | with_reducible apply Engine.Keeps.updChan
    | with_reducible apply Engine.Keeps.tryClean
    | with_reducible apply Engine.Keeps.setBack
    | with_reducible apply Engine.Keeps.run
    | with_reducible apply Engine.Keeps.updItem
    | with_reducible apply Engine.Keeps.mark
    | with_reducible apply Engine.Keeps.setAct
    | with_reducible apply Engine.Keeps.sectorDone
    | with_reducible apply Engine.Keeps.fillBuffers
    | with_reducible apply Engine.Keeps.carryOn

theorem Engine.Keeps.copied {x : Front} (h : a.Keeps e) (c : Side) (t : Transfer) :
    a.Keeps (e.copied x c t) := by
  dsimp only [Engine.copied]
  repeat' first
    | assumption
    | split
    | with_reducible apply Engine.Keeps.updChan
    | with_reducible apply Engine.Keeps.tryClean
    | with_reducible apply Engine.Keeps.mark
    | with_reducible apply Engine.Keeps.countDone
    | with_reducible apply Engine.Keeps.updItem
    | with_reducible apply Engine.Keeps.carryOn

theorem Engine.Keeps.fetched {x : Front} (h : a.Keeps e) (c : Side) (t : Transfer) (data : List Byte) :
    a.Keeps (e.fetched x c t data) := by
  dsimp only [Engine.fetched]
  repeat' first
    | assumption
    | split
    | with_reducible apply Engine.Keeps.run
    | with_reducible apply Engine.Keeps.updChan
    | with_reducible apply Engine.Keeps.fillBuffers

theorem Engine.Keeps.bufferError {x : Front} (h : a.Keeps e) (c : Side) (t : Transfer) :
    a.Keeps (e.bufferError x c t) := by
  dsimp only [Engine.bufferError]
  repeat' first
    | assumption
    | split
    | with_reducible apply Engine.Keeps.updChan
    | with_reducible apply Engine.Keeps.tryClean
    | with_reducible apply Engine.Keeps.mark
    | with_reducible apply Engine.Keeps.updItem
    | with_reducible apply Engine.Keeps.setPending

theorem Engine.Keeps.passAcross {x : Front} (h : a.Keeps e) (c : Side) :
    a.Keeps (e.passAcross x c) := by
  dsimp only [Engine.passAcross]
  repeat' first
    | assumption
    | split
    | with_reducible apply Engine.Keeps.updChan
    | with_reducible apply Engine.Keeps.updItem
    | with_reducible apply Engine.Keeps.carryOn

theorem Engine.Keeps.searchTimeout {x : Front} (h : a.Keeps e) (c : Side) (sector : Nat) :
    a.Keeps (e.searchTimeout x c sector) := by
  dsimp only [Engine.searchTimeout]
  repeat' first
    | assumption
    | split
    | with_reducible apply Engine.Keeps.run
    | with_reducible apply Engine.Keeps.attemptFailed

theorem Engine.Keeps.pulseSearches (h : a.Keeps e) (c : Side) (k : Kind) (busy : Option Nat) :
    a.Keeps (e.pulseSearches c k busy) := by
  dsimp only [Engine.pulseSearches]
  repeat' first
    | assumption
    | split
    | with_reducible apply Engine.Keeps.updRun

theorem Engine.Keeps.beginFormat {x : Front} (h : a.Keeps e) (c : Side) (o : Order) :
    a.Keeps (e.beginFormat x c o) := by
  dsimp only [Engine.beginFormat]
  split
  · exact (h.updOrder o.slot (fun o => o.reopenFormat c) fun _ => rfl).updChan _ _
  · exact h

theorem Engine.Keeps.endFormat {x : Front} (h : a.Keeps e) (c : Side) (o : Order) :
    a.Keeps (e.endFormat x c o) := by
  dsimp only [Engine.endFormat]
  repeat' first
    | assumption
    | split
    | with_reducible apply Engine.Keeps.setBack
    | with_reducible apply Engine.Keeps.run
    | with_reducible apply Engine.Keeps.updChan
    | with_reducible apply Engine.Keeps.mark
    | with_reducible apply Engine.Keeps.formatDone
    | with_reducible apply Engine.Keeps.release
    | with_reducible apply Engine.Keeps.enterVerify
    | with_reducible apply Engine.Keeps.resolveAll
    | (apply Engine.Keeps.foldl; intro e i h)

theorem Engine.Keeps.trySurveyEnd {x : Front} (h : a.Keeps e) (c : Side) :
    a.Keeps (e.trySurveyEnd x c) := by
  dsimp only [Engine.trySurveyEnd]
  repeat' first
    | assumption
    | split
    | with_reducible apply Engine.Keeps.endSurveyStep

theorem Engine.Keeps.channelPulse {x : Front} (h : a.Keeps e) (c : Side) (elapsed : Nat) :
    a.Keeps (e.channelPulse x c elapsed) := by
  dsimp only [Engine.channelPulse]
  repeat' first
    | assumption
    | split
    | with_reducible apply Engine.Keeps.setAct
    | with_reducible apply Engine.Keeps.trySurveyEnd
    | with_reducible apply Engine.Keeps.confirmed
    | with_reducible apply Engine.Keeps.beginFormat
    | with_reducible apply Engine.Keeps.endFormat
    | with_reducible apply Engine.Keeps.pulseSearches
    | with_reducible apply Engine.Keeps.readFailed

theorem Engine.Keeps.indexPulse {x : Front} (h : a.Keeps e) (c : Side) (elapsed : Nat) :
    a.Keeps (e.indexPulse x c elapsed) := by
  dsimp only [Engine.indexPulse]
  repeat' first
    | assumption
    | split
    | with_reducible apply Engine.Keeps.countPulse
    | with_reducible apply Engine.Keeps.channelPulse

theorem Engine.Keeps.finalFillEnd {x : Front} (h : a.Keeps e) (c : Side) :
    a.Keeps (e.finalFillEnd x c) := by
  dsimp only [Engine.finalFillEnd]
  repeat' first
    | assumption
    | split
    | with_reducible apply Engine.Keeps.endFormat

end Sys2Proof.Machine
end

