-- ==== Sys2Proof/Laws/KeepsRest.lean ====
section
/-! SUPPORT. What the operations of the engine leave as it is (`Engine.Keeps`): the choice, the grants, the settling of the channels, and the events of the rows. -/

namespace Sys2Proof.Machine

variable {a e : Engine}

theorem Engine.Keeps.noteRoom {x : Front} (h : a.Keeps e) (c : Side) (slot : Nat) :
    a.Keeps (e.noteRoom x c slot) := by
  dsimp only [Engine.noteRoom]
  repeat' first
    | assumption
    | split
    | with_reducible apply Engine.Keeps.updOrder
    | with_reducible apply Engine.Keeps.setAttention
    | exact fun _ => rfl

theorem Engine.Keeps.noteRooms {x : Front} (h : a.Keeps e) (c : Side) :
    a.Keeps (e.noteRooms x c) := by
  dsimp only [Engine.noteRooms]
  repeat' first
    | assumption
    | split
    | with_reducible apply Engine.Keeps.noteRoom
    | (apply Engine.Keeps.foldl; intro e i h)

theorem Engine.Keeps.choose {x : Front} (h : a.Keeps e) (c : Side) :
    a.Keeps (e.choose x c) := by
  dsimp only [Engine.choose]
  repeat' first
    | assumption
    | split
    | with_reducible apply Engine.Keeps.noteRooms
    | with_reducible apply Engine.Keeps.updChan
    | apply Engine.Keeps.updFreeIndex

theorem Engine.Keeps.bind (h : a.Keeps e) (c : Side) (slot : Nat) :
    a.Keeps (e.bind c slot) := by
  dsimp only [Engine.bind]
  repeat' first
    | assumption
    | split
    | with_reducible apply Engine.Keeps.updChan

theorem Engine.Keeps.unbind (h : a.Keeps e) (c : Side) :
    a.Keeps (e.unbind c) := by
  dsimp only [Engine.unbind]
  repeat' first
    | assumption
    | split
    | with_reducible apply Engine.Keeps.updChan

theorem Engine.Keeps.markServed (h : a.Keeps e) (slot : Nat) (c : Side) :
    a.Keeps (e.markServed slot c) := by
  dsimp only [Engine.markServed]
  repeat' first
    | assumption
    | split
    | with_reducible apply Engine.Keeps.updOrder
    | exact fun _ => rfl

theorem Engine.Keeps.beginPositioning {x : Front} (h : a.Keeps e) (c : Side) :
    a.Keeps (e.beginPositioning x c) := by
  dsimp only [Engine.beginPositioning]
  repeat' first
    | assumption
    | split
    | with_reducible apply Engine.Keeps.enter
    | with_reducible apply Engine.Keeps.select
    | with_reducible apply Engine.Keeps.setAct
    | with_reducible apply Engine.Keeps.release
    | with_reducible apply Engine.Keeps.failSide
    | with_reducible apply Engine.Keeps.markServed
    | with_reducible apply Engine.Keeps.updChan
    | with_reducible apply Engine.Keeps.startPositioning

theorem Engine.Keeps.beginPartnerWait {x : Front} (h : a.Keeps e) (c : Side) :
    a.Keeps (e.beginPartnerWait x c) := by
  dsimp only [Engine.beginPartnerWait]
  repeat' first
    | assumption
    | split
    | with_reducible apply Engine.Keeps.enter
    | with_reducible apply Engine.Keeps.select
    | with_reducible apply Engine.Keeps.setAct
    | with_reducible apply Engine.Keeps.tryClean
    | with_reducible apply Engine.Keeps.holdFailure
    | with_reducible apply Engine.Keeps.updChan
    | with_reducible apply Engine.Keeps.startPositioning

theorem Engine.Keeps.beginStep {x : Front} (h : a.Keeps e) (c : Side) :
    a.Keeps (e.beginStep x c) := by
  dsimp only [Engine.beginStep]
  repeat' first
    | assumption
    | split
    | with_reducible apply Engine.Keeps.enter
    | with_reducible apply Engine.Keeps.select
    | with_reducible apply Engine.Keeps.setAct
    | with_reducible apply Engine.Keeps.endSurveyStep

theorem Engine.Keeps.start {x : Front} (h : a.Keeps e) (c : Side) (b : Begin) :
    a.Keeps (e.start x c b) := by
  dsimp only [Engine.start]
  repeat' first
    | assumption
    | split
    | with_reducible apply Engine.Keeps.beginPositioning
    | with_reducible apply Engine.Keeps.beginPartnerWait
    | with_reducible apply Engine.Keeps.beginStep

theorem Engine.Keeps.startOrDefer {x : Front} (h : a.Keeps e) (c : Side) (b : Begin) :
    a.Keeps (e.startOrDefer x c b) := by
  dsimp only [Engine.startOrDefer]
  repeat' first
    | assumption
    | split
    | with_reducible apply Engine.Keeps.updChan
    | with_reducible apply Engine.Keeps.start

theorem Engine.Keeps.setTurn (h : a.Keeps e) (o : Order) (t : Turn) :
    a.Keeps (e.setTurn o t) := by
  dsimp only [Engine.setTurn]
  repeat' first
    | assumption
    | split
    | with_reducible apply Engine.Keeps.updOrder
    | exact fun _ => rfl

theorem Engine.Keeps.planRun {x : Front} (h : a.Keeps e) (o : Order) (f : Order → Order)
    (hf : ∀ o, (f o).key = o.key) : a.Keeps (e.planRun x o f) :=
  h.updOrder _ _ fun o => hf o

theorem Engine.Keeps.run {x : Front} (h : a.Keeps e) (o : Order) (plan : BySide Bool) :
    a.Keeps (e.run x o plan) := by
  dsimp only [Engine.run]
  repeat' first
    | assumption
    | split
    | with_reducible apply Engine.Keeps.planRun
    | with_reducible apply Engine.Keeps.reserve
    | with_reducible apply Engine.Keeps.writePhase
    | exact fun _ => rfl

theorem Engine.Keeps.leaveOut {x : Front} (h : a.Keeps e) (slot : Nat) (c : Side) :
    a.Keeps (e.leaveOut x slot c) := by
  dsimp only [Engine.leaveOut]
  repeat' first
    | assumption
    | split
    | with_reducible apply Engine.Keeps.updOrder
    | with_reducible apply Engine.Keeps.resolveAll
    | exact fun _ => rfl

theorem Engine.Keeps.grantOne {x : Front} (h : a.Keeps e) (c : Side) (o : Order) :
    a.Keeps (e.grantOne x c o) := by
  dsimp only [Engine.grantOne]
  repeat' first
    | assumption
    | split
    | with_reducible apply Engine.Keeps.run
    | with_reducible apply Engine.Keeps.bind
    | with_reducible apply Engine.Keeps.leaveOut
    | with_reducible apply Engine.Keeps.startOrDefer

theorem Engine.Keeps.startIfHeld {x : Front} (h : a.Keeps e) (c : Side) (slot : Nat) :
    a.Keeps (e.startIfHeld x c slot) := by
  dsimp only [Engine.startIfHeld]
  repeat' first
    | assumption
    | split
    | with_reducible apply Engine.Keeps.startOrDefer

theorem Engine.Keeps.grantTwo {x : Front} (h : a.Keeps e) (c : Side) (o : Order) :
    a.Keeps (e.grantTwo x c o) := by
  dsimp only [Engine.grantTwo]
  repeat' first
    | assumption
    | split
    | with_reducible apply Engine.Keeps.run
    | with_reducible apply Engine.Keeps.bind
    | with_reducible apply Engine.Keeps.unbind
    | with_reducible apply Engine.Keeps.decideFinish
    | with_reducible apply Engine.Keeps.setTurn
    | with_reducible apply Engine.Keeps.startIfHeld
    | with_reducible apply Engine.Keeps.planRun
    | with_reducible apply Engine.Keeps.reserve
    | with_reducible apply Engine.Keeps.startOrDefer
    | exact fun _ => rfl

theorem Engine.Keeps.takeClaim {x : Front} (h : a.Keeps e) (c : Side) :
    a.Keeps (e.takeClaim x c) := by
  dsimp only [Engine.takeClaim]
  repeat' first
    | assumption
    | split
    | with_reducible apply Engine.Keeps.updChan
    | with_reducible apply Engine.Keeps.run
    | with_reducible apply Engine.Keeps.noteRoom
    | with_reducible apply Engine.Keeps.grantTwo
    | with_reducible apply Engine.Keeps.grantOne

theorem Engine.Keeps.joinWaiter {x : Front} (h : a.Keeps e) (w : Side) (slot : Nat) :
    a.Keeps (e.joinWaiter x w slot) := by
  dsimp only [Engine.joinWaiter]
  repeat' first
    | assumption
    | split
    | with_reducible apply Engine.Keeps.updChan
    | with_reducible apply Engine.Keeps.failSide
    | with_reducible apply Engine.Keeps.tryClean
    | with_reducible apply Engine.Keeps.startSide
    | with_reducible apply Engine.Keeps.release
    | with_reducible apply Engine.Keeps.goToTrack
    | with_reducible apply Engine.Keeps.start
    | with_reducible apply Engine.Keeps.enter
    | with_reducible apply Engine.Keeps.updPositioning
    | with_reducible apply Engine.Keeps.startPositioning

theorem Engine.Keeps.serveWaiter (h : a.Keeps e) (w : Side) (slot : Nat) :
    a.Keeps (e.serveWaiter w slot) := by
  dsimp only [Engine.serveWaiter]
  repeat' first
    | assumption
    | split
    | with_reducible apply Engine.Keeps.markServed

theorem Engine.Keeps.takeover {x : Front} (h : a.Keeps e) (j : Side) (o : Order) :
    a.Keeps (e.takeover x j o) := by
  dsimp only [Engine.takeover]
  repeat' first
    | assumption
    | split
    | with_reducible apply Engine.Keeps.updOrder
    | with_reducible apply Engine.Keeps.writePhase
    | with_reducible apply Engine.Keeps.bind
    | with_reducible apply Engine.Keeps.serveWaiter
    | with_reducible apply Engine.Keeps.startOrDefer
    | with_reducible apply Engine.Keeps.joinWaiter
    | with_reducible apply Engine.Keeps.unbind
    | with_reducible apply Engine.Keeps.decideFinish
    | with_reducible apply Engine.Keeps.freeWaiter
    | with_reducible apply Engine.Keeps.setTurn
    | exact fun _ => rfl

theorem Engine.Keeps.startTouch (h : a.Keeps e) (c : Side) (p : PairId) (first : Bool) :
    a.Keeps (e.startTouch c p first) := by
  dsimp only [Engine.startTouch]
  repeat' first
    | assumption
    | split
    | with_reducible apply Engine.Keeps.updChan
    | with_reducible apply Engine.Keeps.setTimer

theorem Engine.Keeps.takeStep {x : Front} (h : a.Keeps e) (c : Side) (d : Drive) :
    a.Keeps (e.takeStep x c d) := by
  dsimp only [Engine.takeStep]
  repeat' first
    | assumption
    | split
    | with_reducible apply Engine.Keeps.updChan
    | with_reducible apply Engine.Keeps.beginStep
    | apply Engine.Keeps.updSurvey

theorem Engine.Keeps.takeNext {x : Front} (h : a.Keeps e) (c : Side) :
    a.Keeps (e.takeNext x c).1 := by
  dsimp only [Engine.takeNext]
  repeat' first
    | assumption
    | split
    | with_reducible apply Engine.Keeps.takeover
    | with_reducible apply Engine.Keeps.run
    | with_reducible apply Engine.Keeps.choose
    | with_reducible apply Engine.Keeps.takeStep

theorem Engine.Keeps.settleChannel {x : Front} (h : a.Keeps e) (c : Side) :
    a.Keeps (e.settleChannel x c).1 := by
  dsimp only [Engine.settleChannel]
  repeat' first
    | assumption
    | split
    | with_reducible apply Engine.Keeps.takeNext
    | with_reducible apply Engine.Keeps.startTouch

theorem Engine.Keeps.settleLoop {x : Front} (n : Nat) : ∀ {e : Engine}, a.Keeps e →
    a.Keeps (Engine.settleLoop x n e) := by
  induction n with
  | zero => exact fun h => h
  | succ n ih =>
    intro e h
    have k := (h.settleChannel (x := x) .A).settleChannel (x := x) .B
    dsimp only [Engine.settleLoop]
    split
    · exact ih k
    · exact k

theorem Engine.Keeps.settle {x : Front} (h : a.Keeps e) : a.Keeps (e.settle x) := by
  dsimp only [Engine.settle]
  split
  · exact Engine.Keeps.settleLoop 12 h
  · exact h

theorem Engine.Keeps.configChannel {x : Front} (h : a.Keeps e) (c : Side) :
    a.Keeps (e.configChannel x c) := by
  dsimp only [Engine.configChannel]
  repeat' first
    | assumption
    | split
    | with_reducible apply Engine.Keeps.startTouch
    | with_reducible apply Engine.Keeps.updChan
    | with_reducible apply Engine.Keeps.enter

theorem Engine.Keeps.releaseOutputs {x : Front} (h : a.Keeps e) (d : Drive) :
    a.Keeps (e.releaseOutputs x d) := by
  dsimp only [Engine.releaseOutputs]
  repeat' first
    | assumption
    | split
    | with_reducible apply Engine.Keeps.setDrive
    | with_reducible apply Engine.Keeps.writeStatus
    | apply Engine.Keeps.updReport

theorem Engine.Keeps.releaseAll {x : Front} (h : a.Keeps e)  :
    a.Keeps (e.releaseAll x) := by
  dsimp only [Engine.releaseAll]
  repeat' first
    | assumption
    | split
    | with_reducible apply Engine.Keeps.releaseOutputs
    | (apply Engine.Keeps.foldl; intro e i h)

theorem Engine.Keeps.configChannels {x : Front} (h : a.Keeps e)  :
    a.Keeps (e.configChannels x) := by
  dsimp only [Engine.configChannels]
  repeat' first
    | assumption
    | split
    | with_reducible apply Engine.Keeps.configChannel
    | with_reducible apply Engine.Keeps.releaseAll

theorem Engine.Keeps.enterConfig {x : Front} (h : a.Keeps e)  :
    a.Keeps (e.enterConfig x) := by
  dsimp only [Engine.enterConfig]
  repeat' first
    | assumption
    | split
    | with_reducible apply Engine.Keeps.writeCtl
    | with_reducible apply Engine.Keeps.updChan
    | with_reducible apply Engine.Keeps.configChannels
    | apply Engine.Keeps.updTimers

theorem Engine.Keeps.finishIfWaiting {x : Front} (h : a.Keeps e) (slot : Nat) (code : FinishCode) :
    a.Keeps (e.finishIfWaiting x slot code) := by
  dsimp only [Engine.finishIfWaiting]
  repeat' first
    | assumption
    | split
    | with_reducible apply Engine.Keeps.finishWaiting

theorem Engine.Keeps.stopAll {x : Front} (h : a.Keeps e)  :
    a.Keeps (e.stopAll x) := by
  dsimp only [Engine.stopAll]
  repeat' first
    | assumption
    | split
    | with_reducible apply Engine.Keeps.finishIfWaiting
    | (apply Engine.Keeps.foldl; intro e i h)

theorem Engine.Keeps.abortOrder {x : Front} (h : a.Keeps e) (slot : Nat) :
    a.Keeps (e.abortOrder x slot) := by
  dsimp only [Engine.abortOrder]
  repeat' first
    | assumption
    | split
    | with_reducible apply Engine.Keeps.updOrder
    | with_reducible apply Engine.Keeps.stopOrder
    | with_reducible apply Engine.Keeps.finishWaiting
    | exact fun _ => rfl

theorem Engine.Keeps.countDrive {x : Front} (h : a.Keeps e) (f : OrderFields) (g : Nat → Nat) (d : Drive) :
    a.Keeps (e.countDrive x f g d) := by
  dsimp only [Engine.countDrive]
  repeat' first
    | assumption
    | split
    | with_reducible apply Engine.Keeps.updDrive

theorem Engine.Keeps.finishDirect {x : Front} (h : a.Keeps e) (slot : Nat) (r : Results) (notify : Bool) (how : DoneHow) :
    a.Keeps (e.finishDirect x slot r notify how) := by
  dsimp only [Engine.finishDirect]
  repeat' first
    | assumption
    | split
    | with_reducible apply Engine.Keeps.writeResults
    | with_reducible apply Engine.Keeps.writePhase

theorem Engine.Keeps.unwait {x : Front} (h : a.Keeps e) (p : PairId) (slot : Nat) :
    a.Keeps (e.unwait x p slot) := by
  dsimp only [Engine.unwait]
  repeat' first
    | assumption
    | split
    | with_reducible apply Engine.Keeps.unreserve
    | with_reducible apply Engine.Keeps.updOrder
    | with_reducible apply Engine.Keeps.freeWaiter
    | exact fun _ => rfl

theorem Engine.Keeps.detach {x : Front} (h : a.Keeps e) (d : Drive)
    (hd : ∀ l ∈ e.log, l.pair = d.pair → l.good = d.side) : a.Keeps (e.detach x d) := by
  dsimp only [Engine.detach]
  split
  · exact h
  · exact Engine.Keeps.foldl _ _ (fun e i h => h.unwait _ _) (h.pairDetach d hd)

theorem Engine.Keeps.immediate {x : Front} (h : a.Keeps e) (f : OrderFields)
    (hd : ∀ l ∈ e.log, f.kind = .detach → l.pair = f.drive.pair → l.good = f.drive.side) :
    a.Keeps (e.immediate x f) := by
  dsimp only [Engine.immediate]
  split
  · exact h.updDrive _ _
  · exact h.updDrive _ _
  · rename_i hk
    exact h.detach _ fun l hl => hd l hl hk
  all_goals exact h

theorem Engine.Keeps.withdraw {x : Front} (h : a.Keeps e) (slot : Nat) :
    a.Keeps (e.withdraw x slot).1 := by
  dsimp only [Engine.withdraw]
  repeat' first
    | assumption
    | split
    | with_reducible apply Engine.Keeps.updOrder
    | with_reducible apply Engine.Keeps.stopOrder
    | with_reducible apply Engine.Keeps.finishWaiting
    | exact fun _ => rfl

theorem Engine.Keeps.repost (h : a.Keeps e) (slot : Nat) :
    a.Keeps (e.repost slot).1 := by
  dsimp only [Engine.repost]
  repeat' first
    | assumption
    | split
    | with_reducible apply Engine.Keeps.updOrder
    | exact fun _ => rfl

theorem Engine.Keeps.takeSurvey {x : Front} (h : a.Keeps e) (m : SurveyMode) (w : Word) :
    a.Keeps (e.takeSurvey x m w).1 := by
  dsimp only [Engine.takeSurvey]
  repeat' first
    | assumption
    | split
    | with_reducible apply Engine.Keeps.setSurvey

theorem Engine.Keeps.unloadExpiry {x : Front} (h : a.Keeps e) (d : Drive) :
    a.Keeps (e.unloadExpiry x d) := by
  dsimp only [Engine.unloadExpiry]
  repeat' first
    | assumption
    | split
    | with_reducible apply Engine.Keeps.updChan
    | with_reducible apply Engine.Keeps.setTimer
    | with_reducible apply Engine.Keeps.headUnloaded
    | with_reducible apply Engine.Keeps.startTouch

theorem Engine.Keeps.startDeferred {x : Front} (h : a.Keeps e) (c : Side) :
    a.Keeps (e.startDeferred x c) := by
  dsimp only [Engine.startDeferred]
  repeat' first
    | assumption
    | split
    | with_reducible apply Engine.Keeps.updChan
    | with_reducible apply Engine.Keeps.setAct
    | with_reducible apply Engine.Keeps.release
    | with_reducible apply Engine.Keeps.start

theorem Engine.Keeps.touchEnd {x : Front} (h : a.Keeps e) (c : Side) :
    a.Keeps (e.touchEnd x c) := by
  dsimp only [Engine.touchEnd]
  repeat' first
    | assumption
    | split
    | with_reducible apply Engine.Keeps.updChan
    | with_reducible apply Engine.Keeps.headUnloaded
    | with_reducible apply Engine.Keeps.startDeferred

theorem Engine.Keeps.configTouchEnd {x : Front} (h : a.Keeps e) (c : Side) :
    a.Keeps (e.configTouchEnd x c) := by
  dsimp only [Engine.configTouchEnd]
  repeat' first
    | assumption
    | split
    | with_reducible apply Engine.Keeps.updChan
    | with_reducible apply Engine.Keeps.changeDrive
    | with_reducible apply Engine.Keeps.setDrive
    | with_reducible apply Engine.Keeps.configChannels
    | apply Engine.Keeps.updReport

theorem Engine.Keeps.dueCheck {x : Front} (h : a.Keeps e) (round : BitVec 6) :
    a.Keeps (e.dueCheck x round) := by
  dsimp only [Engine.dueCheck]
  refine Engine.Keeps.foldl _ _ (fun e o h => h.writePhase _ _ _) ?_
  refine h.trans ⟨?_, id, id, rfl, rfl, List.prefix_refl _, rfl, rfl, rfl⟩
  have rest (o : Order) : Order.key (if o.misses round = true then
      { o with missedRounds := min 255 (o.missedRounds + 1) } else o) = o.key := by split <;> rfl
  have due (o : Order) : o.becomeDue.key = o.key := rfl
  simp only [List.map_append, List.map_map, Function.comp_def, rest, due]
  rw [← List.map_append]
  exact (List.perm_append_comm.trans (List.filter_append_perm (fun o : Order => o.fallsDue round) e.held)).map _

theorem Engine.Keeps.noIndex {x : Front} (h : a.Keeps e) (c : Side) :
    a.Keeps (e.noIndex x c) := by
  dsimp only [Engine.noIndex]
  repeat' first
    | assumption
    | split
    | with_reducible apply Engine.Keeps.speedFault

theorem Engine.Keeps.protectStops {x : Front} (h : a.Keeps e) (d : Drive) :
    a.Keeps (e.protectStops x d) := by
  dsimp only [Engine.protectStops]
  repeat' first
    | assumption
    | split
    | with_reducible apply Engine.Keeps.failSide

theorem Engine.Keeps.surveySample {x : Front} (h : a.Keeps e) (c : Side) :
    a.Keeps (e.surveySample x c) := by
  dsimp only [Engine.surveySample]
  repeat' first
    | assumption
    | split
    | with_reducible apply Engine.Keeps.setAct
    | with_reducible apply Engine.Keeps.trySurveyEnd

theorem Engine.Keeps.sample {x : Front} (h : a.Keeps e) (d : Drive) (l : Lines) :
    a.Keeps (e.sample x d l) := by
  dsimp only [Engine.sample]
  repeat' first
    | assumption
    | split
    | with_reducible apply Engine.Keeps.sampleReady
    | with_reducible apply Engine.Keeps.sampleFlags
    | with_reducible apply Engine.Keeps.protectStops
    | with_reducible apply Engine.Keeps.surveySample

theorem Engine.Keeps.surveyTimeout {x : Front} (h : a.Keeps e) (c : Side) :
    a.Keeps (e.surveyTimeout x c) := by
  dsimp only [Engine.surveyTimeout]
  repeat' first
    | assumption
    | split
    | with_reducible apply Engine.Keeps.setAct
    | with_reducible apply Engine.Keeps.trySurveyEnd

end Sys2Proof.Machine
end

