-- ==== Sys2Proof/Laws/Memory.lean ====
section
/-! SUPPORT. The bytes the part has written: a read after a write, and the canonical form, kept by every
operation that writes (log 1). -/

namespace Sys2Proof.Machine

/-! ### Reading after writing -/

theorem memRead_memWrite_same (m : List Host.Cell) (a : Nat) (b : Byte) :
    memRead (memWrite m a b) a = some b := by
  induction m with
  | nil => simp [memWrite, memRead]
  | cons p m ih =>
    obtain ⟨k, v⟩ := p
    unfold memWrite
    split
    · simp [memRead]
    · split
      · simp [memRead]
      · rename_i h
        simp [memRead, Ne.symm h, ih]

theorem memRead_memWrite_other (m : List Host.Cell) {a a' : Nat} (b : Byte) (h : a' ≠ a) :
    memRead (memWrite m a b) a' = memRead m a' := by
  induction m with
  | nil => simp [memWrite, memRead, Ne.symm h]
  | cons p m ih =>
    obtain ⟨k, v⟩ := p
    unfold memWrite
    split
    · simp [memRead, Ne.symm h]
    · split
      · rename_i hk
        simp [memRead, ← hk, Ne.symm h]
      · simp [memRead, ih]

/-- The two bytes of a word written, and every other byte (Conventions). -/
theorem memRead_memWriteWord (m : List Host.Cell) (a : Nat) (w : Word) (a' : Nat) :
    memRead (memWriteWord m a w) a' =
      if a' = busAddress (a + 1) then some ((w >>> 8).setWidth 8)
      else if a' = busAddress a then some (w.setWidth 8)
      else memRead m a' := by
  unfold memWriteWord
  split
  · rename_i h
    rw [h, memRead_memWrite_same]
  · rename_i h
    rw [memRead_memWrite_other _ _ h]
    split
    · rename_i h
      rw [h, memRead_memWrite_same]
    · rename_i h
      rw [memRead_memWrite_other _ _ h]

/-! ### The canonical form -/

theorem memWfFrom_mono {m : List Host.Cell} {lo lo' : Nat} (h : lo' ≤ lo) (w : memWfFrom lo m = true) :
    memWfFrom lo' m = true := by
  cases m with
  | nil => rfl
  | cons p m =>
    obtain ⟨k, v⟩ := p
    simp only [memWfFrom, Bool.and_eq_true, decide_eq_true_eq] at w ⊢
    exact ⟨⟨by omega, w.1.2⟩, w.2⟩

theorem memWfFrom_memWrite {m : List Host.Cell} {lo a : Nat} (b : Byte) (ha : lo ≤ a)
    (hh : a < Config.hostBytes) (w : memWfFrom lo m = true) : memWfFrom lo (memWrite m a b) = true := by
  induction m generalizing lo with
  | nil => simp [memWrite, memWfFrom, ha, hh]
  | cons p m ih =>
    obtain ⟨k, v⟩ := p
    simp only [memWfFrom, Bool.and_eq_true, decide_eq_true_eq] at w
    unfold memWrite
    split
    · rename_i hk
      simp only [memWfFrom, Bool.and_eq_true, decide_eq_true_eq]
      exact ⟨⟨ha, hh⟩, ⟨by omega, w.1.2⟩, w.2⟩
    · split
      · rename_i hk
        simp only [memWfFrom, Bool.and_eq_true, decide_eq_true_eq]
        exact ⟨⟨ha, hh⟩, hk ▸ w.2⟩
      · simp only [memWfFrom, Bool.and_eq_true, decide_eq_true_eq]
        exact ⟨w.1, ih (by omega) w.2⟩

theorem busAddress_lt (a : Nat) : busAddress a < Config.hostBytes := Nat.mod_lt _ (by decide)

theorem memWf_memWriteWord {m : List Host.Cell} (a : Nat) (w : Word) (h : memWf m = true) :
    memWf (memWriteWord m a w) = true :=
  memWfFrom_memWrite _ (Nat.zero_le _) (busAddress_lt _)
    (memWfFrom_memWrite _ (Nat.zero_le _) (busAddress_lt _) h)

theorem memWf_memAccess {m : List Host.Cell} (w : Access) (h : memWf m = true) :
    memWf (memAccess m w) = true := by
  unfold memAccess
  split
  · exact memWf_memWriteWord _ _ h
  · exact h

theorem memWf_memAccesses {m : List Host.Cell} (ws : List Access) (h : memWf m = true) :
    memWf (memAccesses m ws) = true := by
  unfold memAccesses
  induction ws generalizing m with
  | nil => exact h
  | cons w ws ih => exact ih (memWf_memAccess w h)

theorem memWf_memTransferWord {m : List Host.Cell} (data : List Byte) (t : Transfer) (k : Nat)
    (h : memWf m = true) : memWf (memTransferWord m data t k) = true := by
  unfold memTransferWord
  split
  · exact memWf_memWriteWord _ _ h
  · exact h

theorem State.memWf_moveWord {s : State} (c : Side) (h : memWf s.mem = true) :
    memWf (s.moveWord c).mem = true := by
  unfold State.moveWord
  dsimp only
  split
  · exact h
  · exact memWf_memTransferWord _ _ _ h

theorem State.memWf_completeRecord {s : State} (h : memWf s.mem = true) :
    memWf s.completeRecord.mem = true := by
  unfold State.completeRecord
  split
  · exact h
  · exact memWf_memAccesses _ h

theorem State.memWf_completeCurrent {s : State} (h : memWf s.mem = true) :
    memWf s.completeCurrent.mem = true := by
  unfold State.completeCurrent
  split
  · exact h
  · exact State.memWf_completeRecord h
  · exact State.memWf_moveWord _ h

/-- Serving the port keeps what each grant keeps. -/
theorem State.serveUntil_keeps {P : State → Prop} (grant : ∀ s, P s → P s.grant) (p : State → Bool) (n : Nat)
    {s : State} (h : P s) : P (State.serveUntil p n s) := by
  induction n generalizing s with
  | zero => exact h
  | succ n ih =>
    unfold State.serveUntil
    split
    · exact h
    · exact ih (grant s h)

/-- Serving up to a completion keeps what each grant and the completion of an access keep. -/
theorem State.serve_keeps {P : State → Prop} (grant : ∀ s, P s → P s.grant)
    (current : ∀ s, P s → P s.completeCurrent) (p : State → Bool) {s : State} (h : P s) : P (s.serve p) := by
  unfold State.serve
  split
  · exact h
  · exact current _ (State.serveUntil_keeps grant _ _ h)

theorem State.memWf_grant {s : State} (h : memWf s.mem = true) : memWf s.grant.mem = true :=
  State.memWf_completeCurrent h

theorem State.memWf_serveTo {s : State} (p : State → Bool) (h : memWf s.mem = true) :
    memWf (s.serveTo p).mem = true :=
  State.serveUntil_keeps (P := fun s => memWf s.mem = true) (fun _ => State.memWf_grant) p _ h

theorem State.memWf_serve {s : State} (p : State → Bool) (h : memWf s.mem = true) :
    memWf (s.serve p).mem = true :=
  State.serve_keeps (P := fun s => memWf s.mem = true) (fun _ => State.memWf_grant)
    (fun _ => State.memWf_completeCurrent) p h

theorem State.memWf_await {s s' : State} {p : Notice → Bool} {n : Notice} (h : memWf s.mem = true)
    (a : s.await p = some (n, s')) : memWf s'.mem = true := by
  unfold State.await at a
  dsimp only at a
  split at a
  · exact absurd a (by simp)
  · simp only [Option.some.injEq, Prod.mk.injEq] at a
    rw [← a.2]
    dsimp only
    split
    · exact State.memWf_serve _ h
    · exact h

theorem State.memWf_landed {s : State} (moved : Nat) (h : memWf s.mem = true) :
    memWf (s.landed moved) = true := by
  unfold State.landed
  split
  · exact memWf_memAccesses _ h
  · split
    · exact h
    · exact State.memWf_moveWord _ h
  · exact h

end Sys2Proof.Machine
end

