-- ==== Sys2Proof/WellFormed.lean ====
section
/-! DEFINITION. Which terms are commands as the outside world sends them: each operand has the length or
range of what it stands for (10.1, 10.3 to 10.7, R121, R150; log 29). -/

namespace Sys2Proof

/-- The words that START's reads return: 32 words of the configuration block, eight desk records of 4
words and four drive records of 8 words; or at most 32 image entries of 4 words (10.1). -/
def StartRead.wellFormed : StartRead → Bool
  | .tables a => a.config.length == 32 && a.desks.length == 32 && a.drives.length == 32
  | .image words => decide (words.length ≤ 128)

/-- The longest data field: a mark, 1024 data bytes and a check word (R121, R122). -/
def longestField : Nat := 1027

/-- The longest sector (R121). -/
def longestSector : Nat := 1024

/-- The most words of one record request: an image read of 128 words (10.1, R174). -/
def longestRecord : Nat := 128

/-- A command is well formed: a slot has 16 words (10.7), an ID field eight bytes (10.10), a data field at
most a mark, 1024 bytes and a check word, a sector number is a byte, a period counts in 16 bits (R150), and
a count of moved words is at most a record's. -/
def Instr.wellFormed : Instr → Bool
  | .start => true
  | .startReadComplete read => read.wellFormed
  | .stop => true
  | .abortAll => true
  | .reset moved => decide (moved ≤ longestRecord)
  | .clockLoad => true
  | .presetReadComplete _ => true
  | .clockRun => true
  | .clockHalt => true
  | .areaBaseWrite _ => true
  | .actionWrite _ => true
  | .doneClear _ _ => true
  | .attentionClear _ => true
  | .post => true
  | .slotReadComplete words => words.length == 16
  | .withdraw => true
  | .repost => true
  | .surveyOnce => true
  | .surveyLoop => true
  | .surveyStop => true
  | .badAction => true
  | .resetLine moved => decide (moved ≤ longestRecord)
  | .resetLineRelease => true
  | .busGrant => true
  | .busErrorRecord word => decide (word < longestRecord)
  | .memoryError _ => true
  | .bufferCopyComplete _ => true
  | .bufferFetchComplete _ data => decide (data.length ≤ longestSector)
  | .doneBitSet => true
  | .driveAttention _ => true
  | .surveyDone => true
  | .configError => true
  | .ageTick => true
  | .headUnloadExpiry _ => true
  | .unloadTouchEnd _ => true
  | .surveyWaitExpiry => true
  | .roundTick => true
  | .editionCount => true
  | .claim _ => true
  | .stepTimeEnd _ _ => true
  | .settleEnd _ => true
  | .headLoadEnd _ => true
  | .idFieldRead _ field => field.bytes.length == 8
  | .dataFieldRead _ field => decide (field.bytes.length ≤ longestField)
  | .dataFieldWritten _ => true
  | .passAcross _ => true
  | .searchTimeout _ sector => decide (sector < 256)
  | .indexPulse _ _ => true
  | .noIndexTimeout _ => true
  | .readySample _ _ => true
  | .surveyStepTimeout _ => true
  | .nominalFinalFillEnd _ => true

end Sys2Proof
end

