-- ==== Sys2Proof/Laws/PerInstr.lean ====
section
/-! SUPPORT. One lemma a command: what a well-formed command brings in is bounded by the longest data field
(R121, R122). -/

namespace Sys2Proof.Laws.PayloadBounded

/-- The bytes of data an operand brings in: words of the area or of a slot, or bytes of a field. -/
def payload : Instr → Nat
  | .start => 0
  | .startReadComplete (.tables area) => 2 * (area.config.length + area.desks.length + area.drives.length)
  | .startReadComplete (.image words) => 2 * words.length
  | .stop => 0
  | .abortAll => 0
  | .reset _ => 0
  | .clockLoad => 0
  | .presetReadComplete _ => 2
  | .clockRun => 0
  | .clockHalt => 0
  | .areaBaseWrite _ => 0
  | .actionWrite _ => 0
  | .doneClear _ _ => 0
  | .attentionClear _ => 0
  | .post => 0
  | .slotReadComplete words => 2 * words.length
  | .withdraw => 0
  | .repost => 0
  | .surveyOnce => 0
  | .surveyLoop => 0
  | .surveyStop => 0
  | .badAction => 0
  | .resetLine _ => 0
  | .resetLineRelease => 0
  | .busGrant => 0
  | .busErrorRecord _ => 0
  | .memoryError _ => 0
  | .bufferCopyComplete _ => 0
  | .bufferFetchComplete _ data => data.length
  | .doneBitSet => 0
  | .driveAttention _ => 0
  | .surveyDone => 0
  | .configError => 0
  | .ageTick => 0
  | .headUnloadExpiry _ => 0
  | .unloadTouchEnd _ => 0
  | .surveyWaitExpiry => 0
  | .roundTick => 0
  | .editionCount => 0
  | .claim _ => 0
  | .stepTimeEnd _ _ => 0
  | .settleEnd _ => 0
  | .headLoadEnd _ => 0
  | .idFieldRead _ field => field.bytes.length
  | .dataFieldRead _ field => field.bytes.length
  | .dataFieldWritten _ => 0
  | .passAcross _ => 0
  | .searchTimeout _ _ => 0
  | .indexPulse _ _ => 0
  | .noIndexTimeout _ => 0
  | .readySample _ _ => 0
  | .surveyStepTimeout _ => 0
  | .nominalFinalFillEnd _ => 0

/-- A well-formed command brings in at most the bytes of the longest data field. -/
def Statement (i : Instr) : Prop := i.wellFormed = true → payload i ≤ longestField

theorem start : Statement .start := by
  exact fun _ => Nat.zero_le _

theorem startReadComplete (read : StartRead) : Statement (.startReadComplete read) := by
  intro h
  cases read <;>
    simp only [Instr.wellFormed, StartRead.wellFormed, Bool.and_eq_true, beq_iff_eq, decide_eq_true_eq] at h <;>
    simp only [payload, longestField] <;> omega

theorem stop : Statement .stop := by
  exact fun _ => Nat.zero_le _

theorem abortAll : Statement .abortAll := by
  exact fun _ => Nat.zero_le _

theorem reset (moved : Nat) : Statement (.reset moved) := by
  exact fun _ => Nat.zero_le _

theorem clockLoad : Statement .clockLoad := by
  exact fun _ => Nat.zero_le _

theorem presetReadComplete (preset : Word) : Statement (.presetReadComplete preset) := by
  exact fun _ => by show 2 ≤ 1027; decide

theorem clockRun : Statement .clockRun := by
  exact fun _ => Nat.zero_le _

theorem clockHalt : Statement .clockHalt := by
  exact fun _ => Nat.zero_le _

theorem areaBaseWrite (w : Word) : Statement (.areaBaseWrite w) := by
  exact fun _ => Nat.zero_le _

theorem actionWrite (w : Word) : Statement (.actionWrite w) := by
  exact fun _ => Nat.zero_le _

theorem doneClear (high : Bool) (w : Word) : Statement (.doneClear high w) := by
  exact fun _ => Nat.zero_le _

theorem attentionClear (w : Word) : Statement (.attentionClear w) := by
  exact fun _ => Nat.zero_le _

theorem post : Statement .post := by
  exact fun _ => Nat.zero_le _

theorem slotReadComplete (words : List Word) : Statement (.slotReadComplete words) := by
  exact fun h => (by rw [payload, beq_iff_eq.mp h]; decide)

theorem withdraw : Statement .withdraw := by
  exact fun _ => Nat.zero_le _

theorem repost : Statement .repost := by
  exact fun _ => Nat.zero_le _

theorem surveyOnce : Statement .surveyOnce := by
  exact fun _ => Nat.zero_le _

theorem surveyLoop : Statement .surveyLoop := by
  exact fun _ => Nat.zero_le _

theorem surveyStop : Statement .surveyStop := by
  exact fun _ => Nat.zero_le _

theorem badAction : Statement .badAction := by
  exact fun _ => Nat.zero_le _

theorem resetLine (moved : Nat) : Statement (.resetLine moved) := by
  exact fun _ => Nat.zero_le _

theorem resetLineRelease : Statement .resetLineRelease := by
  exact fun _ => Nat.zero_le _

theorem busGrant : Statement .busGrant := by
  exact fun _ => Nat.zero_le _

theorem busErrorRecord (word : Nat) : Statement (.busErrorRecord word) := by
  exact fun _ => Nat.zero_le _

theorem memoryError (c : Side) : Statement (.memoryError c) := by
  exact fun _ => Nat.zero_le _

theorem bufferCopyComplete (c : Side) : Statement (.bufferCopyComplete c) := by
  exact fun _ => Nat.zero_le _

theorem bufferFetchComplete (c : Side) (data : List Byte) : Statement (.bufferFetchComplete c data) := by
  exact fun h => (of_decide_eq_true h).trans (by decide)

theorem doneBitSet : Statement .doneBitSet := by
  exact fun _ => Nat.zero_le _

theorem driveAttention (d : Drive) : Statement (.driveAttention d) := by
  exact fun _ => Nat.zero_le _

theorem surveyDone : Statement .surveyDone := by
  exact fun _ => Nat.zero_le _

theorem configError : Statement .configError := by
  exact fun _ => Nat.zero_le _

theorem ageTick : Statement .ageTick := by
  exact fun _ => Nat.zero_le _

theorem headUnloadExpiry (d : Drive) : Statement (.headUnloadExpiry d) := by
  exact fun _ => Nat.zero_le _

theorem unloadTouchEnd (c : Side) : Statement (.unloadTouchEnd c) := by
  exact fun _ => Nat.zero_le _

theorem surveyWaitExpiry : Statement .surveyWaitExpiry := by
  exact fun _ => Nat.zero_le _

theorem roundTick : Statement .roundTick := by
  exact fun _ => Nat.zero_le _

theorem editionCount : Statement .editionCount := by
  exact fun _ => Nat.zero_le _

theorem claim (c : Side) : Statement (.claim c) := by
  exact fun _ => Nat.zero_le _

theorem stepTimeEnd (c : Side) (trk0 : Bool) : Statement (.stepTimeEnd c trk0) := by
  exact fun _ => Nat.zero_le _

theorem settleEnd (c : Side) : Statement (.settleEnd c) := by
  exact fun _ => Nat.zero_le _

theorem headLoadEnd (c : Side) : Statement (.headLoadEnd c) := by
  exact fun _ => Nat.zero_le _

theorem idFieldRead (c : Side) (field : FieldRead) : Statement (.idFieldRead c field) := by
  exact fun h => (by rw [payload, beq_iff_eq.mp h]; decide)

theorem dataFieldRead (c : Side) (field : FieldRead) : Statement (.dataFieldRead c field) := by
  exact fun h => of_decide_eq_true h

theorem dataFieldWritten (c : Side) : Statement (.dataFieldWritten c) := by
  exact fun _ => Nat.zero_le _

theorem passAcross (c : Side) : Statement (.passAcross c) := by
  exact fun _ => Nat.zero_le _

theorem searchTimeout (c : Side) (sector : Nat) : Statement (.searchTimeout c sector) := by
  exact fun _ => Nat.zero_le _

theorem indexPulse (c : Side) (elapsed : Nat) : Statement (.indexPulse c elapsed) := by
  exact fun _ => Nat.zero_le _

theorem noIndexTimeout (c : Side) : Statement (.noIndexTimeout c) := by
  exact fun _ => Nat.zero_le _

theorem readySample (d : Drive) (lines : Lines) : Statement (.readySample d lines) := by
  exact fun _ => Nat.zero_le _

theorem surveyStepTimeout (c : Side) : Statement (.surveyStepTimeout c) := by
  exact fun _ => Nat.zero_le _

theorem nominalFinalFillEnd (c : Side) : Statement (.nominalFinalFillEnd c) := by
  exact fun _ => Nat.zero_le _

end Sys2Proof.Laws.PayloadBounded
end

