-- ==== Sys2Proof/Laws/Port.lean ====
section
/-! SUPPORT. What the memory port's work leaves as it is: serving the queue changes memory, the port itself
and the channels' word counts, and nothing else (R171). -/

namespace Sys2Proof.Machine

/-- The port has worked between two states: only memory, the port and the channels have changed. -/
structure State.PortOnly (s s' : State) : Prop where
  pending : s'.pending = s.pending
  front : s'.front = s.front
  engine : s'.engine = { s.engine with port := s'.engine.port, channels := s'.engine.channels }

theorem State.PortOnly.refl (s : State) : s.PortOnly s := ⟨rfl, rfl, rfl⟩

theorem State.PortOnly.trans {s s' s'' : State} (h : s.PortOnly s') (k : s'.PortOnly s'') :
    s.PortOnly s'' :=
  ⟨k.pending.trans h.pending, k.front.trans h.front, by rw [k.engine, h.engine]⟩

theorem State.portIdle_only (s : State) : s.PortOnly s.portIdle := ⟨rfl, rfl, rfl⟩

theorem State.moveWord_only (s : State) (c : Side) : s.PortOnly (s.moveWord c) := by
  unfold State.moveWord
  dsimp only
  split
  · exact .refl s
  · exact ⟨rfl, rfl, rfl⟩

theorem State.completeRecord_only (s : State) : s.PortOnly s.completeRecord := by
  unfold State.completeRecord
  split
  · exact .refl s
  · exact ⟨rfl, rfl, rfl⟩

theorem State.completeCurrent_only (s : State) : s.PortOnly s.completeCurrent := by
  unfold State.completeCurrent
  split
  · exact .refl s
  · exact s.completeRecord_only.trans (State.portIdle_only _)
  · exact (s.moveWord_only _).trans (State.portIdle_only _)

theorem State.grant_only (s : State) : s.PortOnly s.grant := by
  refine s.completeCurrent_only.trans ⟨rfl, rfl, ?_⟩
  simp only [State.grant, Engine.arbitrate]
  split
  · rfl
  · split <;> rfl

theorem State.serveTo_only (s : State) (p : State → Bool) : s.PortOnly (s.serveTo p) :=
  State.serveUntil_keeps (P := s.PortOnly) (fun t h => h.trans t.grant_only) p _ (.refl s)

theorem State.serve_only (s : State) (p : State → Bool) : s.PortOnly (s.serve p) :=
  State.serve_keeps (P := s.PortOnly) (fun t h => h.trans t.grant_only)
    (fun t h => h.trans t.completeCurrent_only) p (.refl s)

theorem State.await_only {s s' : State} {p : Notice → Bool} {n : Notice} (a : s.await p = some (n, s')) :
    s.PortOnly s' := by
  unfold State.await at a
  dsimp only at a
  split at a
  · exact absurd a (by simp)
  · simp only [Option.some.injEq, Prod.mk.injEq] at a
    rw [← a.2]
    split
    · exact (s.serve_only _).trans ⟨rfl, rfl, rfl⟩
    · exact ⟨rfl, rfl, rfl⟩

/-- What is awaited is of the kind looked for. -/
theorem State.await_tells {s s' : State} {p : Notice → Bool} {n : Notice} (a : s.await p = some (n, s')) :
    p n = true := by
  unfold State.await at a
  dsimp only at a
  split at a
  · exact absurd a (by simp)
  · rename_i h
    simp only [Option.some.injEq, Prod.mk.injEq] at a
    exact a.1 ▸ List.find?_some h

end Sys2Proof.Machine
end

