-- ==== Sys2Proof/Laws/Settle.lean ====
section
/-! SUPPORT. What the settling of the channels after an event can do (R31, R52, R115, R157, R161). -/

namespace Sys2Proof.Machine

@[simp] theorem State.settle_mem (s : State) : s.settle.mem = s.mem := by
  unfold State.settle
  dsimp only
  split <;> rfl

@[simp] theorem State.settle_pending (s : State) : s.settle.pending = s.pending := by
  unfold State.settle
  dsimp only
  split <;> rfl

/-- The front after settling: as it was, or that of a drained controller entering CONFIG (R161). -/
theorem State.settle_front (s : State) :
    s.settle.front = s.front ∨ s.front.ctl = .draining ∧ s.settle.front = s.front.enterConfig := by
  unfold State.settle
  dsimp only
  split
  · rename_i h
    exact .inr ⟨h.1, rfl⟩
  · exact .inl rfl

/-- Outside DRAINING settling leaves the front as it was. -/
theorem State.settle_front_of_ne {s : State} (h : s.front.ctl ≠ .draining) : s.settle.front = s.front :=
  s.settle_front.elim id fun k => absurd k.1 h

/-- Settling lets no order join or leave the list. -/
theorem State.settle_keeps (s : State) : s.engine.Keeps s.settle.engine := by
  have k := (Engine.Keeps.refl s.engine).settle (x := s.front)
  unfold State.settle
  dsimp only
  split
  · exact k.enterConfig
  · exact k

@[simp] theorem State.engineEvent_mem (s : State) (f : Front → Engine → Engine) :
    (s.engineEvent f).mem = s.mem := by
  unfold State.engineEvent
  split <;> simp

@[simp] theorem State.engineEvent_pending (s : State) (f : Front → Engine → Engine) :
    (s.engineEvent f).pending = s.pending := by
  unfold State.engineEvent
  split <;> simp

/-- An event at the engine keeps what its operation keeps. -/
theorem State.engineEvent_keeps (s : State) (f : Front → Engine → Engine)
    (hf : s.engine.Keeps (f s.front s.engine)) : s.engine.Keeps (s.engineEvent f).engine := by
  unfold State.engineEvent
  split
  · exact hf.trans (State.settle_keeps { s with engine := f s.front s.engine })
  · exact .refl _

/-- With no channel free nothing begins. -/
theorem Engine.settle_of_noneFree {x : Front} {e : Engine} (h : e.noneFree = true) : e.settle x = e := by
  simp only [Engine.noneFree, Bool.and_eq_true, Bool.not_eq_true'] at h
  unfold Engine.settle
  split
  · simp [Engine.settleLoop, Engine.settleChannel, h.1, h.2]
  · rfl

/-- With no channel free settling changes nothing. -/
theorem State.settle_of_noneFree {s : State} (h : s.engine.noneFree = true) : s.settle = s := by
  unfold State.settle
  simp only [Engine.settle_of_noneFree h]
  simp only [Engine.noneFree, Bool.and_eq_true, Bool.not_eq_true'] at h
  simp [Engine.drained, h.1]

end Sys2Proof.Machine
end

