-- ==== Sys2Proof/Laws/State.lean ====
section
/-! SUPPORT. What each update of the state leaves in each field: one lemma a field and update. -/

namespace Sys2Proof.Machine

/-! ### Tables by side, pair and drive -/

@[simp] theorem BySide.get_set_same {α : Type} (t : BySide α) (c : Side) (v : α) : (t.set c v).get c = v := by
  cases c <;> rfl

@[simp] theorem BySide.get_set_other {α : Type} (t : BySide α) (c : Side) (v : α) :
    (t.set c.other v).get c = t.get c := by
  cases c <;> rfl

@[simp] theorem BySide.get_set_other' {α : Type} (t : BySide α) (c : Side) (v : α) :
    (t.set c v).get c.other = t.get c.other := by
  cases c <;> rfl

@[simp] theorem ByPair.get_set_same {α : Type} (t : ByPair α) (p : PairId) (v : α) :
    (t.set p v).get p = v := by
  cases p <;> rfl

@[simp] theorem BySide.drive_setDrive_same {α : Type} (t : ByDrive α) (d : Drive) (v : α) :
    (t.setDrive d v).drive d = v := by
  simp [BySide.drive, BySide.setDrive]

theorem BySide.drive_setDrive_other {α : Type} (t : ByDrive α) {d d' : Drive} (v : α) (h : d' ≠ d) :
    (t.setDrive d v).drive d' = t.drive d' := by
  obtain ⟨c, p⟩ := d
  obtain ⟨c', p'⟩ := d'
  cases c <;> cases p <;> cases c' <;> cases p' <;> first | rfl | exact absurd rfl h

@[simp] theorem Side.other_other (c : Side) : c.other.other = c := by cases c <;> rfl

@[simp] theorem Side.other_ne (c : Side) : c.other ≠ c := by cases c <;> exact Side.noConfusion

/-! ### The engine's parts -/

@[simp] theorem Engine.chan_setChan (e : Engine) (c : Side) (v : Channel) : (e.setChan c v).chan c = v :=
  BySide.get_set_same _ _ _

@[simp] theorem Engine.chan_setChan_other (e : Engine) (c : Side) (v : Channel) :
    (e.setChan c v).chan c.other = e.chan c.other :=
  BySide.get_set_other' _ _ _

@[simp] theorem Engine.chan_updChan (e : Engine) (c : Side) (f : Channel → Channel) :
    (e.updChan c f).chan c = f (e.chan c) :=
  BySide.get_set_same _ _ _

@[simp] theorem Engine.chan_updChan_other (e : Engine) (c : Side) (f : Channel → Channel) :
    (e.updChan c f).chan c.other = e.chan c.other :=
  BySide.get_set_other' _ _ _

@[simp] theorem Engine.drive_setDrive (e : Engine) (d : Drive) (k : Knowledge) : (e.setDrive d k).drive d = k :=
  BySide.drive_setDrive_same _ _ _

/-- The changed order of a slot. -/
theorem Engine.order?_updOrder (e : Engine) (slot : Nat) (f : Order → Order)
    (hf : ∀ o, (f o).slot = o.slot) : (e.updOrder slot f).order? slot = (e.order? slot).map f := by
  unfold Engine.order? Engine.updOrder
  dsimp only
  induction e.held with
  | nil => rfl
  | cons o os ih =>
    by_cases h : o.slot = slot
    · simp [h, hf]
    · have : (o.slot == slot) = false := by simpa using h
      simp only [List.map_cons, this, Bool.false_eq_true, if_false, List.find?_cons]
      exact ih

/-! ### Engine.setChan -/

@[simp] theorem Engine.setChan_port (e : Engine) (c : Side) (v : Channel) :
    (e.setChan c v).port = e.port := rfl
@[simp] theorem Engine.setChan_attention (e : Engine) (c : Side) (v : Channel) :
    (e.setChan c v).attention = e.attention := rfl
@[simp] theorem Engine.setChan_held (e : Engine) (c : Side) (v : Channel) :
    (e.setChan c v).held = e.held := rfl
@[simp] theorem Engine.setChan_deskHeld (e : Engine) (c : Side) (v : Channel) :
    (e.setChan c v).deskHeld = e.deskHeld := rfl
@[simp] theorem Engine.setChan_closes (e : Engine) (c : Side) (v : Channel) :
    (e.setChan c v).closes = e.closes := rfl
@[simp] theorem Engine.setChan_pairs (e : Engine) (c : Side) (v : Channel) :
    (e.setChan c v).pairs = e.pairs := rfl
@[simp] theorem Engine.setChan_log (e : Engine) (c : Side) (v : Channel) : (e.setChan c v).log = e.log := rfl
@[simp] theorem Engine.setChan_reserved (e : Engine) (c : Side) (v : Channel) :
    (e.setChan c v).reserved = e.reserved := rfl
@[simp] theorem Engine.setChan_timers (e : Engine) (c : Side) (v : Channel) :
    (e.setChan c v).timers = e.timers := rfl
@[simp] theorem Engine.setChan_drives (e : Engine) (c : Side) (v : Channel) :
    (e.setChan c v).drives = e.drives := rfl
@[simp] theorem Engine.setChan_report (e : Engine) (c : Side) (v : Channel) :
    (e.setChan c v).report = e.report := rfl
@[simp] theorem Engine.setChan_survey (e : Engine) (c : Side) (v : Channel) :
    (e.setChan c v).survey = e.survey := rfl
@[simp] theorem Engine.setChan_freeIndex (e : Engine) (c : Side) (v : Channel) :
    (e.setChan c v).freeIndex = e.freeIndex := rfl

/-! ### Engine.updChan -/

@[simp] theorem Engine.updChan_port (e : Engine) (c : Side) (f : Channel → Channel) :
    (e.updChan c f).port = e.port := rfl
@[simp] theorem Engine.updChan_attention (e : Engine) (c : Side) (f : Channel → Channel) :
    (e.updChan c f).attention = e.attention := rfl
@[simp] theorem Engine.updChan_held (e : Engine) (c : Side) (f : Channel → Channel) :
    (e.updChan c f).held = e.held := rfl
@[simp] theorem Engine.updChan_deskHeld (e : Engine) (c : Side) (f : Channel → Channel) :
    (e.updChan c f).deskHeld = e.deskHeld := rfl
@[simp] theorem Engine.updChan_closes (e : Engine) (c : Side) (f : Channel → Channel) :
    (e.updChan c f).closes = e.closes := rfl
@[simp] theorem Engine.updChan_pairs (e : Engine) (c : Side) (f : Channel → Channel) :
    (e.updChan c f).pairs = e.pairs := rfl
@[simp] theorem Engine.updChan_log (e : Engine) (c : Side) (f : Channel → Channel) :
    (e.updChan c f).log = e.log := rfl
@[simp] theorem Engine.updChan_reserved (e : Engine) (c : Side) (f : Channel → Channel) :
    (e.updChan c f).reserved = e.reserved := rfl
@[simp] theorem Engine.updChan_timers (e : Engine) (c : Side) (f : Channel → Channel) :
    (e.updChan c f).timers = e.timers := rfl
@[simp] theorem Engine.updChan_drives (e : Engine) (c : Side) (f : Channel → Channel) :
    (e.updChan c f).drives = e.drives := rfl
@[simp] theorem Engine.updChan_report (e : Engine) (c : Side) (f : Channel → Channel) :
    (e.updChan c f).report = e.report := rfl
@[simp] theorem Engine.updChan_survey (e : Engine) (c : Side) (f : Channel → Channel) :
    (e.updChan c f).survey = e.survey := rfl
@[simp] theorem Engine.updChan_freeIndex (e : Engine) (c : Side) (f : Channel → Channel) :
    (e.updChan c f).freeIndex = e.freeIndex := rfl

/-! ### Engine.setDrive -/

@[simp] theorem Engine.setDrive_port (e : Engine) (d : Drive) (k : Knowledge) :
    (e.setDrive d k).port = e.port := rfl
@[simp] theorem Engine.setDrive_attention (e : Engine) (d : Drive) (k : Knowledge) :
    (e.setDrive d k).attention = e.attention := rfl
@[simp] theorem Engine.setDrive_held (e : Engine) (d : Drive) (k : Knowledge) :
    (e.setDrive d k).held = e.held := rfl
@[simp] theorem Engine.setDrive_deskHeld (e : Engine) (d : Drive) (k : Knowledge) :
    (e.setDrive d k).deskHeld = e.deskHeld := rfl
@[simp] theorem Engine.setDrive_closes (e : Engine) (d : Drive) (k : Knowledge) :
    (e.setDrive d k).closes = e.closes := rfl
@[simp] theorem Engine.setDrive_pairs (e : Engine) (d : Drive) (k : Knowledge) :
    (e.setDrive d k).pairs = e.pairs := rfl
@[simp] theorem Engine.setDrive_log (e : Engine) (d : Drive) (k : Knowledge) :
    (e.setDrive d k).log = e.log := rfl
@[simp] theorem Engine.setDrive_reserved (e : Engine) (d : Drive) (k : Knowledge) :
    (e.setDrive d k).reserved = e.reserved := rfl
@[simp] theorem Engine.setDrive_channels (e : Engine) (d : Drive) (k : Knowledge) :
    (e.setDrive d k).channels = e.channels := rfl
@[simp] theorem Engine.setDrive_timers (e : Engine) (d : Drive) (k : Knowledge) :
    (e.setDrive d k).timers = e.timers := rfl
@[simp] theorem Engine.setDrive_report (e : Engine) (d : Drive) (k : Knowledge) :
    (e.setDrive d k).report = e.report := rfl
@[simp] theorem Engine.setDrive_survey (e : Engine) (d : Drive) (k : Knowledge) :
    (e.setDrive d k).survey = e.survey := rfl
@[simp] theorem Engine.setDrive_freeIndex (e : Engine) (d : Drive) (k : Knowledge) :
    (e.setDrive d k).freeIndex = e.freeIndex := rfl

/-! ### Engine.setTimer -/

@[simp] theorem Engine.setTimer_port (e : Engine) (d : Drive) (t : Timer) :
    (e.setTimer d t).port = e.port := rfl
@[simp] theorem Engine.setTimer_attention (e : Engine) (d : Drive) (t : Timer) :
    (e.setTimer d t).attention = e.attention := rfl
@[simp] theorem Engine.setTimer_held (e : Engine) (d : Drive) (t : Timer) :
    (e.setTimer d t).held = e.held := rfl
@[simp] theorem Engine.setTimer_deskHeld (e : Engine) (d : Drive) (t : Timer) :
    (e.setTimer d t).deskHeld = e.deskHeld := rfl
@[simp] theorem Engine.setTimer_closes (e : Engine) (d : Drive) (t : Timer) :
    (e.setTimer d t).closes = e.closes := rfl
@[simp] theorem Engine.setTimer_pairs (e : Engine) (d : Drive) (t : Timer) :
    (e.setTimer d t).pairs = e.pairs := rfl
@[simp] theorem Engine.setTimer_log (e : Engine) (d : Drive) (t : Timer) : (e.setTimer d t).log = e.log := rfl
@[simp] theorem Engine.setTimer_reserved (e : Engine) (d : Drive) (t : Timer) :
    (e.setTimer d t).reserved = e.reserved := rfl
@[simp] theorem Engine.setTimer_channels (e : Engine) (d : Drive) (t : Timer) :
    (e.setTimer d t).channels = e.channels := rfl
@[simp] theorem Engine.setTimer_drives (e : Engine) (d : Drive) (t : Timer) :
    (e.setTimer d t).drives = e.drives := rfl
@[simp] theorem Engine.setTimer_report (e : Engine) (d : Drive) (t : Timer) :
    (e.setTimer d t).report = e.report := rfl
@[simp] theorem Engine.setTimer_survey (e : Engine) (d : Drive) (t : Timer) :
    (e.setTimer d t).survey = e.survey := rfl
@[simp] theorem Engine.setTimer_freeIndex (e : Engine) (d : Drive) (t : Timer) :
    (e.setTimer d t).freeIndex = e.freeIndex := rfl

/-! ### Engine.updOrder -/

@[simp] theorem Engine.updOrder_port (e : Engine) (slot : Nat) (f : Order → Order) :
    (e.updOrder slot f).port = e.port := rfl
@[simp] theorem Engine.updOrder_attention (e : Engine) (slot : Nat) (f : Order → Order) :
    (e.updOrder slot f).attention = e.attention := rfl
@[simp] theorem Engine.updOrder_deskHeld (e : Engine) (slot : Nat) (f : Order → Order) :
    (e.updOrder slot f).deskHeld = e.deskHeld := rfl
@[simp] theorem Engine.updOrder_closes (e : Engine) (slot : Nat) (f : Order → Order) :
    (e.updOrder slot f).closes = e.closes := rfl
@[simp] theorem Engine.updOrder_pairs (e : Engine) (slot : Nat) (f : Order → Order) :
    (e.updOrder slot f).pairs = e.pairs := rfl
@[simp] theorem Engine.updOrder_log (e : Engine) (slot : Nat) (f : Order → Order) :
    (e.updOrder slot f).log = e.log := rfl
@[simp] theorem Engine.updOrder_reserved (e : Engine) (slot : Nat) (f : Order → Order) :
    (e.updOrder slot f).reserved = e.reserved := rfl
@[simp] theorem Engine.updOrder_channels (e : Engine) (slot : Nat) (f : Order → Order) :
    (e.updOrder slot f).channels = e.channels := rfl
@[simp] theorem Engine.updOrder_timers (e : Engine) (slot : Nat) (f : Order → Order) :
    (e.updOrder slot f).timers = e.timers := rfl
@[simp] theorem Engine.updOrder_drives (e : Engine) (slot : Nat) (f : Order → Order) :
    (e.updOrder slot f).drives = e.drives := rfl
@[simp] theorem Engine.updOrder_report (e : Engine) (slot : Nat) (f : Order → Order) :
    (e.updOrder slot f).report = e.report := rfl
@[simp] theorem Engine.updOrder_survey (e : Engine) (slot : Nat) (f : Order → Order) :
    (e.updOrder slot f).survey = e.survey := rfl
@[simp] theorem Engine.updOrder_freeIndex (e : Engine) (slot : Nat) (f : Order → Order) :
    (e.updOrder slot f).freeIndex = e.freeIndex := rfl

/-! ### Engine.toTail -/

@[simp] theorem Engine.toTail_port (e : Engine) (slot : Nat) : (e.toTail slot).port = e.port := rfl
@[simp] theorem Engine.toTail_attention (e : Engine) (slot : Nat) :
    (e.toTail slot).attention = e.attention := rfl
@[simp] theorem Engine.toTail_deskHeld (e : Engine) (slot : Nat) : (e.toTail slot).deskHeld = e.deskHeld := rfl
@[simp] theorem Engine.toTail_closes (e : Engine) (slot : Nat) : (e.toTail slot).closes = e.closes := rfl
@[simp] theorem Engine.toTail_pairs (e : Engine) (slot : Nat) : (e.toTail slot).pairs = e.pairs := rfl
@[simp] theorem Engine.toTail_log (e : Engine) (slot : Nat) : (e.toTail slot).log = e.log := rfl
@[simp] theorem Engine.toTail_reserved (e : Engine) (slot : Nat) : (e.toTail slot).reserved = e.reserved := rfl
@[simp] theorem Engine.toTail_channels (e : Engine) (slot : Nat) : (e.toTail slot).channels = e.channels := rfl
@[simp] theorem Engine.toTail_timers (e : Engine) (slot : Nat) : (e.toTail slot).timers = e.timers := rfl
@[simp] theorem Engine.toTail_drives (e : Engine) (slot : Nat) : (e.toTail slot).drives = e.drives := rfl
@[simp] theorem Engine.toTail_report (e : Engine) (slot : Nat) : (e.toTail slot).report = e.report := rfl
@[simp] theorem Engine.toTail_survey (e : Engine) (slot : Nat) : (e.toTail slot).survey = e.survey := rfl
@[simp] theorem Engine.toTail_freeIndex (e : Engine) (slot : Nat) :
    (e.toTail slot).freeIndex = e.freeIndex := rfl

/-! ### Engine.issue -/

@[simp] theorem Engine.issue_attention (e : Engine) (k : RequestKind) (ws : List Access) (n : Option Notice) :
    (e.issue k ws n).attention = e.attention := rfl
@[simp] theorem Engine.issue_held (e : Engine) (k : RequestKind) (ws : List Access) (n : Option Notice) :
    (e.issue k ws n).held = e.held := rfl
@[simp] theorem Engine.issue_deskHeld (e : Engine) (k : RequestKind) (ws : List Access) (n : Option Notice) :
    (e.issue k ws n).deskHeld = e.deskHeld := rfl
@[simp] theorem Engine.issue_closes (e : Engine) (k : RequestKind) (ws : List Access) (n : Option Notice) :
    (e.issue k ws n).closes = e.closes := rfl
@[simp] theorem Engine.issue_pairs (e : Engine) (k : RequestKind) (ws : List Access) (n : Option Notice) :
    (e.issue k ws n).pairs = e.pairs := rfl
@[simp] theorem Engine.issue_log (e : Engine) (k : RequestKind) (ws : List Access) (n : Option Notice) :
    (e.issue k ws n).log = e.log := rfl
@[simp] theorem Engine.issue_reserved (e : Engine) (k : RequestKind) (ws : List Access) (n : Option Notice) :
    (e.issue k ws n).reserved = e.reserved := rfl
@[simp] theorem Engine.issue_channels (e : Engine) (k : RequestKind) (ws : List Access) (n : Option Notice) :
    (e.issue k ws n).channels = e.channels := rfl
@[simp] theorem Engine.issue_timers (e : Engine) (k : RequestKind) (ws : List Access) (n : Option Notice) :
    (e.issue k ws n).timers = e.timers := rfl
@[simp] theorem Engine.issue_drives (e : Engine) (k : RequestKind) (ws : List Access) (n : Option Notice) :
    (e.issue k ws n).drives = e.drives := rfl
@[simp] theorem Engine.issue_report (e : Engine) (k : RequestKind) (ws : List Access) (n : Option Notice) :
    (e.issue k ws n).report = e.report := rfl
@[simp] theorem Engine.issue_survey (e : Engine) (k : RequestKind) (ws : List Access) (n : Option Notice) :
    (e.issue k ws n).survey = e.survey := rfl
@[simp] theorem Engine.issue_freeIndex (e : Engine) (k : RequestKind) (ws : List Access) (n : Option Notice) :
    (e.issue k ws n).freeIndex = e.freeIndex := rfl

/-! ### Engine.tellLast -/

@[simp] theorem Engine.tellLast_attention (e : Engine) (n : Notice) : (e.tellLast n).attention = e.attention := rfl
@[simp] theorem Engine.tellLast_held (e : Engine) (n : Notice) : (e.tellLast n).held = e.held := rfl
@[simp] theorem Engine.tellLast_deskHeld (e : Engine) (n : Notice) : (e.tellLast n).deskHeld = e.deskHeld := rfl
@[simp] theorem Engine.tellLast_closes (e : Engine) (n : Notice) : (e.tellLast n).closes = e.closes := rfl
@[simp] theorem Engine.tellLast_pairs (e : Engine) (n : Notice) : (e.tellLast n).pairs = e.pairs := rfl
@[simp] theorem Engine.tellLast_log (e : Engine) (n : Notice) : (e.tellLast n).log = e.log := rfl
@[simp] theorem Engine.tellLast_reserved (e : Engine) (n : Notice) : (e.tellLast n).reserved = e.reserved := rfl
@[simp] theorem Engine.tellLast_channels (e : Engine) (n : Notice) : (e.tellLast n).channels = e.channels := rfl
@[simp] theorem Engine.tellLast_timers (e : Engine) (n : Notice) : (e.tellLast n).timers = e.timers := rfl
@[simp] theorem Engine.tellLast_drives (e : Engine) (n : Notice) : (e.tellLast n).drives = e.drives := rfl
@[simp] theorem Engine.tellLast_report (e : Engine) (n : Notice) : (e.tellLast n).report = e.report := rfl
@[simp] theorem Engine.tellLast_survey (e : Engine) (n : Notice) : (e.tellLast n).survey = e.survey := rfl
@[simp] theorem Engine.tellLast_freeIndex (e : Engine) (n : Notice) : (e.tellLast n).freeIndex = e.freeIndex := rfl

/-- The request at the tail of the queue, and it alone, is told of. -/
theorem Engine.tellLast_queue (e : Engine) (n : Notice) (q : List Request) (r : Request)
    (h : e.port.queue = q ++ [r]) : (e.tellLast n).port.queue = q ++ [{ r with notice := some n }] := by
  simp [Engine.tellLast, h]

/-! ### Engine.headerWrite -/

@[simp] theorem Engine.headerWrite_attention (e : Engine) (x : Front) (ws : List (Nat × Word)) (n : Option Notice) :
    (Engine.headerWrite x e ws n).attention = e.attention := rfl
@[simp] theorem Engine.headerWrite_held (e : Engine) (x : Front) (ws : List (Nat × Word)) (n : Option Notice) :
    (Engine.headerWrite x e ws n).held = e.held := rfl
@[simp] theorem Engine.headerWrite_deskHeld (e : Engine) (x : Front) (ws : List (Nat × Word)) (n : Option Notice) :
    (Engine.headerWrite x e ws n).deskHeld = e.deskHeld := rfl
@[simp] theorem Engine.headerWrite_closes (e : Engine) (x : Front) (ws : List (Nat × Word)) (n : Option Notice) :
    (Engine.headerWrite x e ws n).closes = e.closes := rfl
@[simp] theorem Engine.headerWrite_pairs (e : Engine) (x : Front) (ws : List (Nat × Word)) (n : Option Notice) :
    (Engine.headerWrite x e ws n).pairs = e.pairs := rfl
@[simp] theorem Engine.headerWrite_log (e : Engine) (x : Front) (ws : List (Nat × Word)) (n : Option Notice) :
    (Engine.headerWrite x e ws n).log = e.log := rfl
@[simp] theorem Engine.headerWrite_reserved (e : Engine) (x : Front) (ws : List (Nat × Word)) (n : Option Notice) :
    (Engine.headerWrite x e ws n).reserved = e.reserved := rfl
@[simp] theorem Engine.headerWrite_channels (e : Engine) (x : Front) (ws : List (Nat × Word)) (n : Option Notice) :
    (Engine.headerWrite x e ws n).channels = e.channels := rfl
@[simp] theorem Engine.headerWrite_timers (e : Engine) (x : Front) (ws : List (Nat × Word)) (n : Option Notice) :
    (Engine.headerWrite x e ws n).timers = e.timers := rfl
@[simp] theorem Engine.headerWrite_drives (e : Engine) (x : Front) (ws : List (Nat × Word)) (n : Option Notice) :
    (Engine.headerWrite x e ws n).drives = e.drives := rfl
@[simp] theorem Engine.headerWrite_report (e : Engine) (x : Front) (ws : List (Nat × Word)) (n : Option Notice) :
    (Engine.headerWrite x e ws n).report = e.report := rfl
@[simp] theorem Engine.headerWrite_survey (e : Engine) (x : Front) (ws : List (Nat × Word)) (n : Option Notice) :
    (Engine.headerWrite x e ws n).survey = e.survey := rfl
@[simp] theorem Engine.headerWrite_freeIndex (e : Engine) (x : Front) (ws : List (Nat × Word)) (n : Option Notice) :
    (Engine.headerWrite x e ws n).freeIndex = e.freeIndex := rfl

/-! ### Engine.setAttention -/

@[simp] theorem Engine.setAttention_port (e : Engine) (n : Nat) : (e.setAttention n).port = e.port := rfl
@[simp] theorem Engine.setAttention_held (e : Engine) (n : Nat) : (e.setAttention n).held = e.held := rfl
@[simp] theorem Engine.setAttention_deskHeld (e : Engine) (n : Nat) :
    (e.setAttention n).deskHeld = e.deskHeld := rfl
@[simp] theorem Engine.setAttention_closes (e : Engine) (n : Nat) : (e.setAttention n).closes = e.closes := rfl
@[simp] theorem Engine.setAttention_pairs (e : Engine) (n : Nat) : (e.setAttention n).pairs = e.pairs := rfl
@[simp] theorem Engine.setAttention_log (e : Engine) (n : Nat) : (e.setAttention n).log = e.log := rfl
@[simp] theorem Engine.setAttention_reserved (e : Engine) (n : Nat) :
    (e.setAttention n).reserved = e.reserved := rfl
@[simp] theorem Engine.setAttention_channels (e : Engine) (n : Nat) :
    (e.setAttention n).channels = e.channels := rfl
@[simp] theorem Engine.setAttention_timers (e : Engine) (n : Nat) : (e.setAttention n).timers = e.timers := rfl
@[simp] theorem Engine.setAttention_drives (e : Engine) (n : Nat) : (e.setAttention n).drives = e.drives := rfl
@[simp] theorem Engine.setAttention_report (e : Engine) (n : Nat) : (e.setAttention n).report = e.report := rfl
@[simp] theorem Engine.setAttention_survey (e : Engine) (n : Nat) : (e.setAttention n).survey = e.survey := rfl
@[simp] theorem Engine.setAttention_freeIndex (e : Engine) (n : Nat) :
    (e.setAttention n).freeIndex = e.freeIndex := rfl

/-! ### Engine.clearAttention -/

@[simp] theorem Engine.clearAttention_port (e : Engine) (w : Word) : (e.clearAttention w).port = e.port := rfl
@[simp] theorem Engine.clearAttention_held (e : Engine) (w : Word) : (e.clearAttention w).held = e.held := rfl
@[simp] theorem Engine.clearAttention_deskHeld (e : Engine) (w : Word) :
    (e.clearAttention w).deskHeld = e.deskHeld := rfl
@[simp] theorem Engine.clearAttention_closes (e : Engine) (w : Word) :
    (e.clearAttention w).closes = e.closes := rfl
@[simp] theorem Engine.clearAttention_pairs (e : Engine) (w : Word) :
    (e.clearAttention w).pairs = e.pairs := rfl
@[simp] theorem Engine.clearAttention_log (e : Engine) (w : Word) : (e.clearAttention w).log = e.log := rfl
@[simp] theorem Engine.clearAttention_reserved (e : Engine) (w : Word) :
    (e.clearAttention w).reserved = e.reserved := rfl
@[simp] theorem Engine.clearAttention_channels (e : Engine) (w : Word) :
    (e.clearAttention w).channels = e.channels := rfl
@[simp] theorem Engine.clearAttention_timers (e : Engine) (w : Word) :
    (e.clearAttention w).timers = e.timers := rfl
@[simp] theorem Engine.clearAttention_drives (e : Engine) (w : Word) :
    (e.clearAttention w).drives = e.drives := rfl
@[simp] theorem Engine.clearAttention_report (e : Engine) (w : Word) :
    (e.clearAttention w).report = e.report := rfl
@[simp] theorem Engine.clearAttention_survey (e : Engine) (w : Word) :
    (e.clearAttention w).survey = e.survey := rfl
@[simp] theorem Engine.clearAttention_freeIndex (e : Engine) (w : Word) :
    (e.clearAttention w).freeIndex = e.freeIndex := rfl

/-! ### Front.popAction -/

@[simp] theorem Front.popAction_ctl (x : Front) : (x.popAction).ctl = x.ctl := rfl
@[simp] theorem Front.popAction_resetLine (x : Front) : (x.popAction).resetLine = x.resetLine := rfl
@[simp] theorem Front.popAction_starting (x : Front) : (x.popAction).starting = x.starting := rfl
@[simp] theorem Front.popAction_tables (x : Front) : (x.popAction).tables = x.tables := rfl
@[simp] theorem Front.popAction_areaBase (x : Front) : (x.popAction).areaBase = x.areaBase := rfl
@[simp] theorem Front.popAction_done (x : Front) : (x.popAction).done = x.done := rfl
@[simp] theorem Front.popAction_notify (x : Front) : (x.popAction).notify = x.notify := rfl
@[simp] theorem Front.popAction_enable (x : Front) : (x.popAction).enable = x.enable := rfl
@[simp] theorem Front.popAction_round (x : Front) : (x.popAction).round = x.round := rfl
@[simp] theorem Front.popAction_clock (x : Front) : (x.popAction).clock = x.clock := rfl
@[simp] theorem Front.popAction_faultActive (x : Front) : (x.popAction).faultActive = x.faultActive := rfl
@[simp] theorem Front.popAction_pins (x : Front) : (x.popAction).pins = x.pins := rfl

/-! ### Front.setDone -/

@[simp] theorem Front.setDone_ctl (x : Front) (slot : Nat) (n : Bool) : (x.setDone slot n).ctl = x.ctl := rfl
@[simp] theorem Front.setDone_resetLine (x : Front) (slot : Nat) (n : Bool) :
    (x.setDone slot n).resetLine = x.resetLine := rfl
@[simp] theorem Front.setDone_starting (x : Front) (slot : Nat) (n : Bool) :
    (x.setDone slot n).starting = x.starting := rfl
@[simp] theorem Front.setDone_tables (x : Front) (slot : Nat) (n : Bool) :
    (x.setDone slot n).tables = x.tables := rfl
@[simp] theorem Front.setDone_areaBase (x : Front) (slot : Nat) (n : Bool) :
    (x.setDone slot n).areaBase = x.areaBase := rfl
@[simp] theorem Front.setDone_actionQ (x : Front) (slot : Nat) (n : Bool) :
    (x.setDone slot n).actionQ = x.actionQ := rfl
@[simp] theorem Front.setDone_intake (x : Front) (slot : Nat) (n : Bool) :
    (x.setDone slot n).intake = x.intake := rfl
@[simp] theorem Front.setDone_enable (x : Front) (slot : Nat) (n : Bool) :
    (x.setDone slot n).enable = x.enable := rfl
@[simp] theorem Front.setDone_round (x : Front) (slot : Nat) (n : Bool) :
    (x.setDone slot n).round = x.round := rfl
@[simp] theorem Front.setDone_clock (x : Front) (slot : Nat) (n : Bool) :
    (x.setDone slot n).clock = x.clock := rfl
@[simp] theorem Front.setDone_faultActive (x : Front) (slot : Nat) (n : Bool) :
    (x.setDone slot n).faultActive = x.faultActive := rfl
@[simp] theorem Front.setDone_pins (x : Front) (slot : Nat) (n : Bool) :
    (x.setDone slot n).pins = x.pins := rfl

/-! ### Front.clearDone -/

@[simp] theorem Front.clearDone_ctl (x : Front) (h : Bool) (w : Word) : (x.clearDone h w).ctl = x.ctl := rfl
@[simp] theorem Front.clearDone_resetLine (x : Front) (h : Bool) (w : Word) :
    (x.clearDone h w).resetLine = x.resetLine := rfl
@[simp] theorem Front.clearDone_starting (x : Front) (h : Bool) (w : Word) :
    (x.clearDone h w).starting = x.starting := rfl
@[simp] theorem Front.clearDone_tables (x : Front) (h : Bool) (w : Word) :
    (x.clearDone h w).tables = x.tables := rfl
@[simp] theorem Front.clearDone_areaBase (x : Front) (h : Bool) (w : Word) :
    (x.clearDone h w).areaBase = x.areaBase := rfl
@[simp] theorem Front.clearDone_actionQ (x : Front) (h : Bool) (w : Word) :
    (x.clearDone h w).actionQ = x.actionQ := rfl
@[simp] theorem Front.clearDone_intake (x : Front) (h : Bool) (w : Word) :
    (x.clearDone h w).intake = x.intake := rfl
@[simp] theorem Front.clearDone_enable (x : Front) (h : Bool) (w : Word) :
    (x.clearDone h w).enable = x.enable := rfl
@[simp] theorem Front.clearDone_round (x : Front) (h : Bool) (w : Word) :
    (x.clearDone h w).round = x.round := rfl
@[simp] theorem Front.clearDone_clock (x : Front) (h : Bool) (w : Word) :
    (x.clearDone h w).clock = x.clock := rfl
@[simp] theorem Front.clearDone_faultActive (x : Front) (h : Bool) (w : Word) :
    (x.clearDone h w).faultActive = x.faultActive := rfl
@[simp] theorem Front.clearDone_pins (x : Front) (h : Bool) (w : Word) : (x.clearDone h w).pins = x.pins := rfl

/-! ### Front.withClock -/

@[simp] theorem Front.withClock_ctl (x : Front) (k : Clock) : (x.withClock k).ctl = x.ctl := rfl
@[simp] theorem Front.withClock_resetLine (x : Front) (k : Clock) :
    (x.withClock k).resetLine = x.resetLine := rfl
@[simp] theorem Front.withClock_starting (x : Front) (k : Clock) : (x.withClock k).starting = x.starting := rfl
@[simp] theorem Front.withClock_tables (x : Front) (k : Clock) : (x.withClock k).tables = x.tables := rfl
@[simp] theorem Front.withClock_areaBase (x : Front) (k : Clock) : (x.withClock k).areaBase = x.areaBase := rfl
@[simp] theorem Front.withClock_actionQ (x : Front) (k : Clock) : (x.withClock k).actionQ = x.actionQ := rfl
@[simp] theorem Front.withClock_intake (x : Front) (k : Clock) : (x.withClock k).intake = x.intake := rfl
@[simp] theorem Front.withClock_done (x : Front) (k : Clock) : (x.withClock k).done = x.done := rfl
@[simp] theorem Front.withClock_notify (x : Front) (k : Clock) : (x.withClock k).notify = x.notify := rfl
@[simp] theorem Front.withClock_enable (x : Front) (k : Clock) : (x.withClock k).enable = x.enable := rfl
@[simp] theorem Front.withClock_round (x : Front) (k : Clock) : (x.withClock k).round = x.round := rfl
@[simp] theorem Front.withClock_faultActive (x : Front) (k : Clock) :
    (x.withClock k).faultActive = x.faultActive := rfl
@[simp] theorem Front.withClock_pins (x : Front) (k : Clock) : (x.withClock k).pins = x.pins := rfl

/-! ### Front.setPins -/

@[simp] theorem Front.setPins_ctl (x : Front) (d : Drive) (l : Lines) : (x.setPins d l).ctl = x.ctl := rfl
@[simp] theorem Front.setPins_resetLine (x : Front) (d : Drive) (l : Lines) :
    (x.setPins d l).resetLine = x.resetLine := rfl
@[simp] theorem Front.setPins_starting (x : Front) (d : Drive) (l : Lines) :
    (x.setPins d l).starting = x.starting := rfl
@[simp] theorem Front.setPins_tables (x : Front) (d : Drive) (l : Lines) :
    (x.setPins d l).tables = x.tables := rfl
@[simp] theorem Front.setPins_areaBase (x : Front) (d : Drive) (l : Lines) :
    (x.setPins d l).areaBase = x.areaBase := rfl
@[simp] theorem Front.setPins_actionQ (x : Front) (d : Drive) (l : Lines) :
    (x.setPins d l).actionQ = x.actionQ := rfl
@[simp] theorem Front.setPins_intake (x : Front) (d : Drive) (l : Lines) :
    (x.setPins d l).intake = x.intake := rfl
@[simp] theorem Front.setPins_done (x : Front) (d : Drive) (l : Lines) : (x.setPins d l).done = x.done := rfl
@[simp] theorem Front.setPins_notify (x : Front) (d : Drive) (l : Lines) :
    (x.setPins d l).notify = x.notify := rfl
@[simp] theorem Front.setPins_enable (x : Front) (d : Drive) (l : Lines) :
    (x.setPins d l).enable = x.enable := rfl
@[simp] theorem Front.setPins_round (x : Front) (d : Drive) (l : Lines) :
    (x.setPins d l).round = x.round := rfl
@[simp] theorem Front.setPins_clock (x : Front) (d : Drive) (l : Lines) :
    (x.setPins d l).clock = x.clock := rfl

/-! ### Front.nextRound -/

@[simp] theorem Front.nextRound_ctl (x : Front) : (x.nextRound).ctl = x.ctl := rfl
@[simp] theorem Front.nextRound_resetLine (x : Front) : (x.nextRound).resetLine = x.resetLine := rfl
@[simp] theorem Front.nextRound_starting (x : Front) : (x.nextRound).starting = x.starting := rfl
@[simp] theorem Front.nextRound_tables (x : Front) : (x.nextRound).tables = x.tables := rfl
@[simp] theorem Front.nextRound_areaBase (x : Front) : (x.nextRound).areaBase = x.areaBase := rfl
@[simp] theorem Front.nextRound_actionQ (x : Front) : (x.nextRound).actionQ = x.actionQ := rfl
@[simp] theorem Front.nextRound_intake (x : Front) : (x.nextRound).intake = x.intake := rfl
@[simp] theorem Front.nextRound_done (x : Front) : (x.nextRound).done = x.done := rfl
@[simp] theorem Front.nextRound_notify (x : Front) : (x.nextRound).notify = x.notify := rfl
@[simp] theorem Front.nextRound_enable (x : Front) : (x.nextRound).enable = x.enable := rfl
@[simp] theorem Front.nextRound_clock (x : Front) : (x.nextRound).clock = x.clock := rfl
@[simp] theorem Front.nextRound_pins (x : Front) : (x.nextRound).pins = x.pins := rfl

/-! ### Front.enterConfig -/

@[simp] theorem Front.enterConfig_resetLine (x : Front) : (x.enterConfig).resetLine = x.resetLine := rfl
@[simp] theorem Front.enterConfig_starting (x : Front) : (x.enterConfig).starting = x.starting := rfl
@[simp] theorem Front.enterConfig_tables (x : Front) : (x.enterConfig).tables = x.tables := rfl
@[simp] theorem Front.enterConfig_areaBase (x : Front) : (x.enterConfig).areaBase = x.areaBase := rfl
@[simp] theorem Front.enterConfig_intake (x : Front) : (x.enterConfig).intake = x.intake := rfl
@[simp] theorem Front.enterConfig_done (x : Front) : (x.enterConfig).done = x.done := rfl
@[simp] theorem Front.enterConfig_notify (x : Front) : (x.enterConfig).notify = x.notify := rfl
@[simp] theorem Front.enterConfig_round (x : Front) : (x.enterConfig).round = x.round := rfl
@[simp] theorem Front.enterConfig_clock (x : Front) : (x.enterConfig).clock = x.clock := rfl
@[simp] theorem Front.enterConfig_pins (x : Front) : (x.enterConfig).pins = x.pins := rfl

/-! ### Front.fault -/

@[simp] theorem Front.fault_resetLine (x : Front) : (x.fault).resetLine = x.resetLine := rfl
@[simp] theorem Front.fault_tables (x : Front) : (x.fault).tables = x.tables := rfl
@[simp] theorem Front.fault_areaBase (x : Front) : (x.fault).areaBase = x.areaBase := rfl
@[simp] theorem Front.fault_actionQ (x : Front) : (x.fault).actionQ = x.actionQ := rfl
@[simp] theorem Front.fault_intake (x : Front) : (x.fault).intake = x.intake := rfl
@[simp] theorem Front.fault_done (x : Front) : (x.fault).done = x.done := rfl
@[simp] theorem Front.fault_notify (x : Front) : (x.fault).notify = x.notify := rfl
@[simp] theorem Front.fault_enable (x : Front) : (x.fault).enable = x.enable := rfl
@[simp] theorem Front.fault_round (x : Front) : (x.fault).round = x.round := rfl
@[simp] theorem Front.fault_clock (x : Front) : (x.fault).clock = x.clock := rfl
@[simp] theorem Front.fault_faultActive (x : Front) : (x.fault).faultActive = x.active := rfl
@[simp] theorem Front.fault_pins (x : Front) : (x.fault).pins = x.pins := rfl

/-! ### Engine.dropClaims -/

@[simp] theorem Engine.dropClaims_port (e : Engine) (slot : Nat) : (e.dropClaims slot).port = e.port := rfl
@[simp] theorem Engine.dropClaims_attention (e : Engine) (slot : Nat) :
    (e.dropClaims slot).attention = e.attention := rfl
@[simp] theorem Engine.dropClaims_held (e : Engine) (slot : Nat) : (e.dropClaims slot).held = e.held := rfl
@[simp] theorem Engine.dropClaims_deskHeld (e : Engine) (slot : Nat) :
    (e.dropClaims slot).deskHeld = e.deskHeld := rfl
@[simp] theorem Engine.dropClaims_closes (e : Engine) (slot : Nat) :
    (e.dropClaims slot).closes = e.closes := rfl
@[simp] theorem Engine.dropClaims_pairs (e : Engine) (slot : Nat) : (e.dropClaims slot).pairs = e.pairs := rfl
@[simp] theorem Engine.dropClaims_log (e : Engine) (slot : Nat) : (e.dropClaims slot).log = e.log := rfl
@[simp] theorem Engine.dropClaims_reserved (e : Engine) (slot : Nat) :
    (e.dropClaims slot).reserved = e.reserved := rfl
@[simp] theorem Engine.dropClaims_timers (e : Engine) (slot : Nat) :
    (e.dropClaims slot).timers = e.timers := rfl
@[simp] theorem Engine.dropClaims_drives (e : Engine) (slot : Nat) :
    (e.dropClaims slot).drives = e.drives := rfl
@[simp] theorem Engine.dropClaims_report (e : Engine) (slot : Nat) :
    (e.dropClaims slot).report = e.report := rfl
@[simp] theorem Engine.dropClaims_survey (e : Engine) (slot : Nat) :
    (e.dropClaims slot).survey = e.survey := rfl
@[simp] theorem Engine.dropClaims_freeIndex (e : Engine) (slot : Nat) :
    (e.dropClaims slot).freeIndex = e.freeIndex := rfl

/-- What a channel is after an order has left the list: as it was, but that its claim for that order finds it
gone (R48). -/
@[simp] theorem Engine.chan_dropClaims (e : Engine) (slot : Nat) (c : Side) :
    (e.dropClaims slot).chan c =
      { e.chan c with claim := (e.chan c).claim.map (Claim.orderLeft slot) } := by cases c <;> rfl

@[simp] theorem Claim.orderLeft_slot (slot : Nat) (cl : Claim) : (cl.orderLeft slot).slot = cl.slot := by
  unfold Claim.orderLeft
  split <;> rfl
@[simp] theorem Claim.orderLeft_held (slot : Nat) (cl : Claim) :
    (cl.orderLeft slot).held = (cl.held && !(cl.slot == slot)) := by
  unfold Claim.orderLeft
  split <;> simp_all

/-! ### State.portIdle -/

@[simp] theorem State.portIdle_pending (s : State) : (s.portIdle).pending = s.pending := rfl
@[simp] theorem State.portIdle_front (s : State) : (s.portIdle).front = s.front := rfl
@[simp] theorem State.portIdle_mem (s : State) : (s.portIdle).mem = s.mem := rfl

/-! ### State.answer -/

@[simp] theorem State.answer_pending (s : State) (w : Word) (o : ActionOutcome) :
    (s.answer w o).pending = s.pending := rfl
@[simp] theorem State.answer_mem (s : State) (w : Word) (o : ActionOutcome) : (s.answer w o).mem = s.mem := rfl

/-! ### State.answerWithdraw and State.orderLeaves -/

@[simp] theorem State.answerWithdraw_pending (s : State) (w : Word) (o : ActionOutcome) :
    (s.answerWithdraw w o).pending = s.pending := by
  unfold State.answerWithdraw
  split <;> rfl
@[simp] theorem State.answerWithdraw_mem (s : State) (w : Word) (o : ActionOutcome) :
    (s.answerWithdraw w o).mem = s.mem := by
  unfold State.answerWithdraw
  split <;> rfl
@[simp] theorem State.orderLeaves_pending (s : State) (slot : Nat) : (s.orderLeaves slot).pending = s.pending := by
  dsimp only [State.orderLeaves]
  split <;> rfl
@[simp] theorem State.orderLeaves_mem (s : State) (slot : Nat) : (s.orderLeaves slot).mem = s.mem := by
  dsimp only [State.orderLeaves]
  split <;> rfl

/-! ### State.closing -/

@[simp] theorem State.closing_pending (s : State) (w : Word) : (s.closing w).pending = s.pending := rfl
@[simp] theorem State.closing_engine (s : State) (w : Word) : (s.closing w).engine = s.engine := rfl
@[simp] theorem State.closing_mem (s : State) (w : Word) : (s.closing w).mem = s.mem := rfl

/-! ### State.setClock -/

@[simp] theorem State.setClock_pending (s : State) (k : Clock) : (s.setClock k).pending = s.pending := rfl
@[simp] theorem State.setClock_mem (s : State) (k : Clock) : (s.setClock k).mem = s.mem := rfl

/-! ### State.hostWrite -/

@[simp] theorem State.hostWrite_front (s : State) (r : Register) (w : Word) (moved : Nat) :
    (s.hostWrite r w moved).front = s.front := rfl
@[simp] theorem State.hostWrite_engine (s : State) (r : Register) (w : Word) (moved : Nat) :
    (s.hostWrite r w moved).engine = s.engine := rfl
@[simp] theorem State.hostWrite_mem (s : State) (r : Register) (w : Word) (moved : Nat) :
    (s.hostWrite r w moved).mem = s.mem := rfl

end Sys2Proof.Machine
end

