-- ==== Sys2Proof/Tests/Slice0.lean ====
section
/-! SUPPORT. Tests: the checks of well-formedness refuse an ill-formed term each; the spec's worked cases on
small states; and a witness for the hypotheses of each statement, each clause at a boundary. -/

namespace Sys2Proof.Tests

open Sys2Proof Sys2Proof.Machine

/-! ### Small states -/

/-- The drive record of the spec's example: MFM, 15 sectors of 512 bytes, 77 cylinders, 2 surfaces (R13). -/
def record : DriveRecord :=
  { DriveRecord.absent with
    present := true, mfm := true, sizeCode := 2, firstSector := 1, surfaces := 2, cylinders := 77,
    sectors := 15, step := 8, settle := 15, load := 35, unload := 20 }

/-- An FM record of 26 sectors of 128 bytes. -/
def recordFm : DriveRecord := { record with mfm := false, sizeCode := 0, sectors := 26 }

/-- Configuration tables with every desk enabled and every drive present. -/
def tables : Tables :=
  { desks := List.replicate 8 { enabled := true, cls := 2, limit := 32 },
    drives := BySide.allDrives record, overdue := 150, retry := 3 }

/-- A drive that is READY with its head loaded on a cylinder. -/
def readyOn (cylinder : Nat) : Knowledge :=
  { Knowledge.reset with state := .ready, held := some true, loaded := true, cylinder := some cylinder }

/-- RUN, with the two channels IDLE and every drive READY on cylinder 2. -/
def base : State :=
  let e := State.reset.engine
  { State.reset with
    front := { State.reset.front with ctl := .run, areaBase := 0x3A0, tables := tables },
    engine := { e with
      drives := BySide.allDrives (readyOn 2),
      channels := ⟨{ e.channels.a with state := .idle }, { e.channels.b with state := .idle }⟩ } }

/-- The fields of an order of a kind on drive 0: cylinder 2, surface 0, sectors 3 and 4. -/
def fields (kind : Kind) : OrderFields :=
  { kind := kind, desk := 0, drive := ⟨.A, .p0⟩, pairCopy := kind == .mend, policy := .take, notify := true,
    rush := false, drop := false, verify := false, standing := false, changedOnly := false, cylinder := 2,
    surface := 0, firstSector := 3, count := 2, volume := 0, fill := 0, buffer := 0x20000, roundMask := 0,
    roundValue := 0 }

/-- A held order in a slot. -/
def order (slot : Nat) (f : OrderFields) (st : RosterState) : Order :=
  { Order.accepted base.engine slot f with state := st }

/-- A state with these orders held. -/
def holding (os : List Order) : State := { base with engine := { base.engine with held := os } }

/-- A state with channel A's record changed. -/
def onA (s : State) (f : Channel → Channel) : State := { s with engine := s.engine.updChan .A f }

/-- Two sectors of the track in hand, the first with two pulses counted. -/
def items (write : Bool) : List Item :=
  [{ Item.fresh 0 3 write with pulses := 2 }, Item.fresh 1 4 write]

/-- Channel A at work on slot 31 in its track pass. -/
def working (f : OrderFields) (act : Act) (write : Bool) : State :=
  onA (holding [order 31 f .running]) fun ch =>
    { ch with
      state := .trackPass, selected := some .p0, lastSelected := some .p0, order := some 31, act := act,
      run := { Run.none with track := 4, items := items write, volumeTested := true } }

/-- The state after one command. -/
def after (s : State) (c : Instr) : State :=
  match exec c s with
  | .next t => t
  | .fault _ => s
  | .refused _ => s

/-- Words of a slot as the host writes it (10.7): phase POSTED, and a READ on drive 0. -/
def slotWords (kind : Nat) : List Word :=
  [1, lohi kind 0, 0x0100, lohi 2 0, lohi 3 2, 0, 0, 2] ++ List.replicate 8 0

/-- The tables as START reads them (10.3 to 10.5): every desk enabled, four drives, pair 0 bound, and a length
of the split log. -/
def area (sectors length : Nat) : AreaData :=
  { config := [150, 600, 3, 0x1F, 1, 0, 0, 0, BitVec.ofNat 16 length] ++ List.replicate 23 0,
    desks := (List.replicate 8 [1, 2, 32, 0]).flatten,
    drives := (List.replicate 4 [0x1211, lohi 2 77, BitVec.ofNat 16 sectors, lohi 8 15, lohi 35 20, 0, 0, 0]).flatten }

/-- Words of an image entry (10.6): pair 0, side A good, a sector of cylinder 0, origin slot 31, a WRITE. -/
def entryWords (sector : Nat) : List Word := [0, 0, lohi sector 31, 2]

/-- RUN with one action word in the queue. -/
def asked (w : Word) (s : State) : State := { s with front := { s.front with actionQ := [w] } }

/-- The state with one request in the record queue. -/
def queued (k : RequestKind) (n : Notice) (s : State) : State :=
  { s with engine := s.engine.issue k [{ addr := 0x3A000, data := some 0x1234 }] (some n) }

/-! ### Well-formedness: each check refuses an ill-formed term -/

theorem test_wf_area : (StartRead.tables (area 15 0)).wellFormed = true := by decide
theorem test_wf_area_config : (StartRead.tables { area 15 0 with config := [] }).wellFormed = false := by decide
theorem test_wf_area_desks : (StartRead.tables { area 15 0 with desks := [] }).wellFormed = false := by decide
theorem test_wf_area_drives : (StartRead.tables { area 15 0 with drives := [] }).wellFormed = false := by decide
theorem test_wf_image (words : List Word) (h : words.length = 129) :
    (Instr.startReadComplete (.image words)).wellFormed = false := by
  simp [Instr.wellFormed, StartRead.wellFormed, h]
theorem test_wf_slot : (Instr.slotReadComplete (List.replicate 15 0)).wellFormed = false := by decide
theorem test_wf_reset : (Instr.reset 129).wellFormed = false := by decide
theorem test_wf_reset_line : (Instr.resetLine 129).wellFormed = false := by decide
theorem test_wf_bus_error : (Instr.busErrorRecord 128).wellFormed = false := by decide
theorem test_wf_fetch (data : List Byte) (h : data.length = 1025) :
    (Instr.bufferFetchComplete .A data).wellFormed = false := by
  simp [Instr.wellFormed, longestSector, h]
theorem test_wf_id : (Instr.idFieldRead .A ⟨8, [0x3C]⟩).wellFormed = false := by decide
theorem test_wf_data (bytes : List Byte) (h : bytes.length = 1028) :
    (Instr.dataFieldRead .A ⟨8, bytes⟩).wellFormed = false := by
  simp [Instr.wellFormed, longestField, h]
theorem test_wf_sector : (Instr.searchTimeout .A 256).wellFormed = false := by decide

/-- The table gives no bits: no word spells a command. -/
theorem test_decode_none : decodeTableWord 16 0x011F = none := by decide

/-- R162, 10.8: the word 7 in COMMAND/STATE names CLOCK_HALT; 0 and 8 name no command. -/
theorem test_command_codes :
    Register.commandState.write? 7 0 = some .clockHalt ∧ Register.commandState.write? 0 0 = none ∧
    Register.commandState.write? 8 0 = none := by decide

/-! ### The spec's worked cases -/

/-- R124, R125: MFM 15 sectors of 512 bytes: need 9220, extra 32, final fill 700; FM 26 of 128: 4604, 22, 24. -/
theorem test_track_fit :
    trackNeed true 15 512 = 9220 ∧ trackExtra record = 32 ∧ finalFill record = 700 ∧
    trackNeed false 26 128 = 4604 ∧ trackExtra recordFm = 22 ∧ finalFill recordFm = 24 ∧
    trackFits true 17 512 = false ∧ trackFits false 17 256 = false := by decide

/-- R13: cylinder 76, surface 1, first sector 10: a count of 6 lies inside the diskette, 8 does not. -/
theorem test_range_example :
    rangeOk record { fields .read with cylinder := 76, surface := 1, firstSector := 10, count := 6 } = true ∧
    rangeOk record { fields .read with cylinder := 76, surface := 1, firstSector := 10, count := 8 } = false := by
  decide

/-- R14: 8 sectors of 512 bytes at 0xFF000 end at 0x100000; 9 do not fit. -/
theorem test_buffer_example :
    bufferOk record { fields .read with buffer := 0xFF000, count := 8 } = true ∧
    bufferOk record { fields .read with buffer := 0xFF000, count := 9 } = false := by decide

/-- R81: mask 48, value 32 is due in rounds 32 to 47. -/
theorem test_due_example :
    let o := order 0 { fields .read with standing := true, roundMask := 48, roundValue := 32 } .waitingRound
    o.fallsDue 31 = false ∧ o.fallsDue 32 = true ∧ o.fallsDue 47 = true ∧ o.fallsDue 48 = false := by decide

/-- The four orders of the worked case of 2.6, with channel A choosing. -/
def choiceCase : State :=
  let desk (c : Nat) : Desk := { enabled := true, cls := c, limit := 32 }
  let f (k : Kind) (desk : Nat) (d : Drive) (cyl : Nat) : OrderFields :=
    { fields k with desk := desk, drive := d, cylinder := cyl, firstSector := 1, count := 8 }
  let aged (o : Order) (age : Nat) : Order := { o with age := age }
  let held := [
    aged (order 3 (f .read 1 ⟨.A, .p0⟩ 42) .queued) 30,
    aged (order 7 (f .write 3 ⟨.A, .p1⟩ 10) .queued) 4,
    aged (order 9 { f .read 0 ⟨.A, .p0⟩ 70 with rush := true } .queued) 140,
    aged (order 12 { f .write 2 ⟨.A, .p0⟩ 41 with pairCopy := true } .queued) 60]
  let ch := base.engine.channels
  { base with
    front := { base.front with
      tables := { tables with desks := [desk 0, desk 1, desk 2, desk 3] },
      clock := { base.front.clock with phase := .near } },
    engine := { base.engine with
      held := held, pairs := ⟨{ PairRecord.reset with bound := true }, PairRecord.reset⟩,
      channels := ⟨{ ch.a with lastSelected := some .p0 }, { ch.b with lastSelected := some .p1 }⟩,
      drives := ⟨⟨readyOn 40, { readyOn 12 with loaded := false }⟩, ⟨readyOn 5, readyOn 60⟩⟩ } }

/-- The scores of the worked case: 186, 366, 480 and 332 (R42 to R45). -/
theorem test_choice_scores :
    choiceCase.engine.held.map (choiceCase.engine.score choiceCase.front) = [186, 366, 480, 332] := by decide

/-- Slot 9 wins the worked case; with the overdue limit 25 it wins by age (R46, R47). -/
theorem test_choice_winner :
    (choiceCase.engine.winner? choiceCase.front .A).map Order.slot = some 9 ∧
    (choiceCase.engine.winner?
      { choiceCase.front with tables := { choiceCase.front.tables with overdue := 25 } } .A).map Order.slot =
      some 9 := by decide

/-! ### One step each, on fields the spec fixes -/

/-- R20: a waiting order is withdrawn; its finish is decided at once. -/
theorem test_withdraw_waiting :
    (after (asked 0x021F (holding [order 31 (fields .read) .queued])) .withdraw).engine.held.map Order.finish =
      [some .withdrawn] := by decide

/-- R10, R176: a POST of slot 31 reads its sixteen words from the area's offset 0x620 on. -/
theorem test_post_reads_slot :
    ((after (asked 0x011F base) .post).engine.port.queue.map fun r => (r.words.length, r.words.head?)) =
      [(16, some { addr := 0x3A000 + 0x620, data := none })] := by decide

/-- R80: round 63 wraps to 0. -/
theorem test_round_wraps :
    (after { base with front := { base.front with round := 63 } } .roundTick).front.round = 0 := by decide

/-- R98: the count from 1 to 0 closes the edition, and with no DROP order CLOSE is set at once. -/
theorem test_close :
    let t := after { base with front := { base.front with
      clock := { remaining := 1, running := true, phase := .near, window := 600 } } } .editionCount
    t.front.clock.phase = .closed ∧ t.front.clock.running = false ∧ t.engine.attention = 0x020#10 := by decide

/-- R109: an outward step from cylinder 2 leads to cylinder 1. -/
theorem test_step_outward :
    ((after (onA (working (fields .read) (.stepping false) false) fun ch =>
      { ch with state := .positioning }) (.stepTimeEnd .A false)).engine.drive ⟨.A, .p0⟩).cylinder = some 1 := by
  decide

/-- R151: a second period out of range takes a READY drive OFF_SPEED. -/
theorem test_off_speed :
    let s := working (fields .read) .seeking false
    let k := { readyOn 2 with timing := true, outCount := 1 }
    ((after { s with engine := s.engine.setDrive ⟨.A, .p0⟩ k } (.indexPulse .A 1751)).engine.drive
      ⟨.A, .p0⟩).state = .offSpeed := by decide

/-- R122: after 7 sync bytes an MFM ID field is not recognised, after 8 it is: the place on the track shows. -/
theorem test_sync_run :
    let s := working (fields .read) .seeking false
    let last (n : Nat) : Option Nat :=
      ((after s (.idFieldRead .A ⟨n, idField 7 2 0 3 2⟩)).engine.chan .A).run.lastId
    last 7 = none ∧ last 8 = some 3 := by decide +kernel

/-- R117: a channel asked to stop begins no read at the sector that arrives. -/
theorem test_stopping_begins_nothing :
    let s := onA (working (fields .read) .seeking false) fun ch => { ch with stopping := true }
    ((after s (.idFieldRead .A ⟨8, idField 7 2 0 3 2⟩)).engine.chan .A).act ≠ .reading 0 false .A 0 := by
  decide +kernel

/-- R62, R163: with a length of 1 the four words of one image entry are asked for, once the tables pass. -/
theorem test_image_read :
    let s := after { State.reset with front := { State.reset.front with areaBase := 0x3A0 } } .start
    let t := after s (.startReadComplete (.tables (area 15 1)))
    (t.engine.port.queue.map fun r => (r.words.length, r.words.head?)) =
      [(4, some { addr := 0x3A140, data := none })] := by decide

/-- R97: a count of 1 to 0 in a FAULT entered from CONFIG is not taken. -/
theorem test_no_close_from_config :
    let x := { base.front with
      ctl := .fault, clock := { remaining := 1, running := true, phase := .near, window := 600 } }
    (after { base with front := x, engine := base.engine.issue .headerWrite [] none } .editionCount).front.clock =
      x.clock := by decide

/-- R168: an ACTION write to a full queue sets ACTION_LOST. -/
theorem test_action_lost :
    (after { base with front := { base.front with actionQ := List.replicate 8 0x0100 } }
      (.actionWrite 0x0101)).engine.attention = 0x080#10 := by decide

/-- R163: area base 0xFFA is too high: START is back in CONFIG. -/
theorem test_bad_base :
    (after { State.reset with front := { State.reset.front with areaBase := 0xFFA } } .start).front.ctl =
      .config := by decide

/-! ### Witnesses: a state and operands that meet the hypotheses of each statement -/

/-- A front at its bounds. -/
def bounded : State :=
  { base with
    pending := [.ageTick],
    mem := [(0x3A000, 1), (0xFFFFF, 2)],
    front := { base.front with
      actionQ := List.replicate 8 0x0100, tables := { tables with overdue := 255, retry := 7 },
      clock := { remaining := 5999, running := true, phase := .far, window := 900 } } }

theorem witness_MemoryStaysCanonical : memWf bounded.mem = true ∧ ∃ t, step bounded = .next t :=
  ⟨by decide, _, rfl⟩

theorem witness_FrontKeepsItsBounds : bounded.front.Bounded ∧ ∃ t, step bounded = .next t :=
  ⟨by constructor <;> decide, _, rfl⟩

/-- Two orders, in the first and the last slot: one waits, one runs. -/
def twoHeld : State :=
  { holding [order 0 { fields .read with drop := true } .queued, order 31 (fields .write) .running] with
    pending := [.ageTick] }

theorem heldOnce_twoHeld : twoHeld.HeldOnce :=
  ⟨by decide, by decide, fun w h => by cases h⟩

theorem witness_EachSlotIsHeldOnce : twoHeld.HeldOnce ∧ ∃ t, step twoHeld = .next t :=
  ⟨heldOnce_twoHeld, _, rfl⟩

/-- A log with an entry of each pair. -/
def logged : State :=
  let l : LogEntry :=
    { pair := .p0, good := .A, place := { cylinder := 0, surface := 0, sector := 1 }, origin := 0,
      originKind := .write }
  { base with
    pending := [.roundTick],
    engine := { base.engine with
      pairs := ⟨{ PairRecord.reset with bound := true }, { PairRecord.reset with bound := true }⟩,
      log := [l, { l with pair := .p1 }] } }

theorem witness_SplitLogKeepsItsForm :
    LogOnce logged.engine.log ∧ LogClear logged.engine.pairs logged.engine.log ∧ ∃ t, step logged = .next t :=
  ⟨by unfold LogOnce; decide, by unfold LogClear; decide, _, rfl⟩

/-- Pair 0 is bound, and 30 entries stand in the log, side A good. -/
def paired (s : State) : State :=
  { s with engine := { s.engine with
    pairs := ⟨{ PairRecord.reset with bound := true }, PairRecord.reset⟩,
    log := (List.range 30).map fun k =>
      { pair := .p0, good := .A, place := { cylinder := k, surface := 0, sector := 1 }, origin := 0,
        originKind := .write } } }

/-- A PAIR order of a kind runs mirrored on two sectors and holds the last two log entries. -/
def mirrored (kind : Kind) (a b : Entry) : State :=
  let o := order 31 { fields kind with pairCopy := true } .running
  let s := paired (holding [{ o with
    mirrored := true, plan := BySide.both true, resolved := [false, false], reservation := 2,
    progress := ⟨[a, .notBegun], [b, .notBegun]⟩ }])
  { s with engine := { s.engine with reserved := 2 } }

theorem witness_LogRoomIsKept :
    let s := { mirrored .write .done .notBegun with pending := [.ageTick] }
    s.HeldOnce ∧ s.RoomKept ∧ s.engine.log.length + s.engine.reserved = 32 ∧ ∃ t, step s = .next t :=
  ⟨⟨by decide, by decide, fun w h => by cases h⟩,
    ⟨by decide, by decide, by decide, by decide, fun h => by rcases h with h | h <;> cases h⟩, by decide, _, rfl⟩

/-- One order is held, on desk 0 and drive 0, and counted for both; drive 0's door is locked for it, and the
lamps of bus B's drives are lit. -/
def counted : State :=
  let s := holding [order 0 (fields .read) .queued]
  { s with
    pending := [.ageTick],
    front := { s.front with tables := { tables with
      drives := ⟨⟨{ record with aux := .doorLock }, { record with aux := .doorLock }⟩,
        ⟨{ record with aux := .inUseLamp }, { record with aux := .inUseLamp }⟩⟩ } },
    engine := { s.engine with
      deskHeld := [1, 0, 0, 0, 0, 0, 0, 0],
      drives := ⟨⟨{ readyOn 2 with heldCount := 1, latch := true }, readyOn 2⟩,
        ⟨{ readyOn 2 with latch := true }, { readyOn 2 with latch := true }⟩⟩ } }

theorem witness_HeldCountsFollowTheOrders : counted.HeldOnce ∧ counted.Counted ∧ ∃ t, step counted = .next t :=
  ⟨⟨by decide, by decide, fun w h => by cases h⟩,
    ⟨by decide, by decide, fun d => by rcases d with ⟨c, p⟩; cases c <;> cases p <;> decide,
      fun h => by rcases h with h | h <;> cases h⟩, _, rfl⟩

/-- Channel A writes a data field with its write gate up. -/
def gated : State :=
  { onA (working (fields .write) (.writing 0 (some .A)) true) fun ch => { ch with writeGate := true } with
    pending := [.ageTick] }

theorem witness_WriteGatesStayProper :
    gated.HeldOnce ∧ gated.GatesProper ∧ (gated.engine.chan .A).writeGate = true ∧ ∃ t, step gated = .next t :=
  ⟨⟨by decide, by decide, fun w h => by cases h⟩,
    fun c h => by
      cases c
      · exact ⟨by decide, by decide, by decide, _, rfl, by decide⟩
      · exact absurd h (by decide),
    by decide, _, rfl⟩

theorem witness_AuxOutputsFollowTheirCauses :
    counted.OutputsFollow ∧ counted.front.active = true ∧ (∃ t, step counted = .next t) ∧
    (counted.front.record ⟨.A, .p0⟩).aux = .doorLock ∧ (counted.front.record ⟨.B, .p1⟩).aux = .inUseLamp :=
  ⟨fun _ d => by rcases d with ⟨c, p⟩; cases c <;> cases p <;> decide, by decide, ⟨_, rfl⟩, by decide⟩

theorem witness_OrdersLeaveByTheirDoneBit :
    (∃ t, exec .stop twoHeld = .next t) ∧ order 31 (fields .write) .running ∈ twoHeld.engine.held ∧
    (∃ t, exec .doneBitSet twoHeld = .next t) ∧ (twoHeld.engine.held.map Order.slot).Nodup :=
  ⟨⟨_, rfl⟩, by decide, ⟨_, rfl⟩, by decide⟩

theorem witness_PhasesAreLeftByALoad :
    base.front.Bounded ∧ base.front.clock.phase = .idle ∧ bounded.front.clock.phase ≠ .idle ∧
    (let s := { base with front := { base.front with clock := { Clock.reset with phase := .closed } } }
     s.front.clock.phase = .closed ∧ s.front.clock.remaining = 0 ∧ ∃ t, exec .roundTick s = .next t) :=
  ⟨by constructor <;> decide, by decide, by decide, by decide, by decide, _, rfl⟩

/-- CONFIG with an AREA BASE value. -/
def atBase (b : BitVec 12) : State := { State.reset with front := { State.reset.front with areaBase := b } }

theorem witness_StartBeginsAndIsJudged :
    (atBase 0xFF9).front.resetLine = false ∧ (atBase 0xFF9).front.ctl = .config ∧
    (∀ c, ((atBase 0xFF9).engine.chan c).state = .stopped) ∧ (atBase 0xFF9).front.areaBase.toNat ≤ 0xFF9 ∧
    0xFF9 < (atBase 0xFFA).front.areaBase.toNat ∧
    ((onA (atBase 0) fun ch => { ch with state := .idle }).engine.chan .A).state ≠ .stopped :=
  ⟨rfl, rfl, fun c => by cases c <;> rfl, by decide⟩

/-- STARTING, with the reads of the area issued. -/
def reading : State := after (atBase 0xFF9) .start

/-- STARTING, with the tables read and one image entry asked for. -/
def imaging : State := after reading (.startReadComplete (.tables (area 15 1)))

theorem witness_StartBeginsAndIsJudged_tables :
    reading.front.ctl = .starting ∧ reading.front.starting = .reading ∧
    (∃ n s1, reading.await (fun n => n == .startRead) = some (n, s1)) ∧
    (∀ n, n = 0 ∨ n = 1 ∨ n = 32 ∨ n = 33 →
      (∃ read, checkTables reading.engine.pairs (area 15 n) = .ok read) ∧ imageLength (area 15 n) = n) ∧
    checkTables reading.engine.pairs (area 17 0) = .error (.trackOverfull, 0) :=
  ⟨by decide, by decide, ⟨_, _, rfl⟩,
    fun n h => by rcases h with rfl | rfl | rfl | rfl <;> exact ⟨⟨_, rfl⟩, by decide⟩, rfl⟩

theorem witness_StartBeginsAndIsJudged_image :
    imaging.front.ctl = .starting ∧ imaging.front.starting = .imaging (area 15 1) ∧
    (∃ n s1, imaging.await (fun n => n == .startRead) = some (n, s1)) ∧
    (∃ k, checkArea imaging.engine.pairs (area 15 1) (entryWords 15) = .ok k) ∧
    checkArea imaging.engine.pairs (area 15 1) (entryWords 16) = .error (.splitImage, 0) :=
  ⟨by decide, by decide, ⟨_, _, rfl⟩, ⟨_, rfl⟩, rfl⟩

theorem witness_StartChecksWhatItReads :
    let ws := (area 16 0).drives
    ((0x1211#16).getLsbD 0 = true ∧ (0x1210#16).getLsbD 0 = false) ∧
    (∃ r, driveRecordOf ws = .ok r ∧ r.present = true) ∧
    (ws.set 1 (lohi 2 81)).getD 1 0 = lohi 2 81 ∧ 80 < 81 ∧ 10400 < 160 + 17 * (512 + 92) ∧
    (∃ drives, driveRecordsOf ws = .ok drives ∧ ∀ d : Drive, driveRecordOf (ws.drop (8 * d.number)) = .ok (drives.drive d)) ∧
    ((area 15 0).config.getD 4 0).getLsbD 0 = true ∧ ((area 15 0).config.getD 6 0).getLsbD 0 = false ∧
    (∃ read, checkTables base.engine.pairs (area 15 1) = .ok read ∧
      (∃ log, imageOf read.2 read.1 1 (entryWords 15) = .ok log ∧ log.length = 1) ∧
      imageOf read.2 read.1 1 (entryWords 16) = .error (.splitImage, 0) ∧
      imageOf read.2 read.1 33 (entryWords 15) = .error (.splitImage, 32)) :=
  ⟨by decide, ⟨_, rfl, rfl⟩, by decide, by decide, by decide,
    ⟨_, rfl, fun d => by rcases d with ⟨c, p⟩; cases c <;> cases p <;> rfl⟩, by decide, by decide,
    ⟨_, rfl, ⟨_, rfl, rfl⟩, rfl, rfl⟩⟩

theorem witness_StopFinishesTheWaitingOrders :
    twoHeld.HeldOnce ∧ twoHeld.front.resetLine = false ∧ twoHeld.front.ctl = .run ∧
    (∃ o ∈ twoHeld.engine.held, o.finish = none ∧ o.state ≠ .running) ∧
    (∃ o ∈ twoHeld.engine.held, o.state = .running ∧ o.finish = none) ∧
    twoHeld.engine.survey.step = none ∧
    ({ twoHeld.engine.survey with step := some ⟨.B, .p1⟩ }).step = some ⟨.B, .p1⟩ ∧
    base.HeldOnce ∧ base.front.resetLine = false ∧ base.front.ctl = .run ∧ base.engine.held = [] :=
  ⟨heldOnce_twoHeld, rfl, rfl, by decide, by decide, rfl, rfl,
    ⟨by decide, by decide, fun w h => by cases h⟩, rfl, rfl, rfl⟩

/-- R28, R161: a STOP with nothing held and both channels IDLE enters CONFIG; with an order held it drains. -/
theorem test_stop :
    (after base .stop).front.ctl = .config ∧ (after twoHeld .stop).front.ctl = .draining := by decide

theorem witness_AbortAllEndsEveryOrder :
    twoHeld.HeldOnce ∧ twoHeld.front.resetLine = false ∧ (twoHeld.front.ctl = .run ∨ twoHeld.front.ctl = .draining) ∧
    ∃ o ∈ twoHeld.engine.held, o.finish = none :=
  ⟨heldOnce_twoHeld, rfl, .inl rfl, by decide⟩

theorem witness_ResetsReturnToTheResetValues :
    twoHeld.front.resetLine = false ∧ twoHeld.engine.port.inProgress = none := by decide

theorem witness_ClockCommandsAreTaken :
    base.front.resetLine = false ∧ base.front.ctl = .run ∧
    ∃ n s1, (after base .clockLoad).await (fun n => n == .presetRead) = some (n, s1) :=
  ⟨rfl, rfl, _, _, rfl⟩

theorem witness_RegisterWritesAreTakenOrLeaveNoTrace :
    base.front.ctl ≠ .config ∧ State.reset.front.ctl ≠ .run ∧ State.reset.front.ctl ≠ .draining ∧
    (after base (.resetLine 0)).front.resetLine = true ∧
    base.front.resetLine = false ∧ base.front.ctl = .run ∧ bounded.front.actionQ.length = 8 ∧
    ({ base with front := { base.front with actionQ := List.replicate 7 0 } }).front.actionQ.length = 7 ∧
    State.reset.front.ctl = .config ∧ reading.front.ctl ≠ .config ∧ reading.front.ctl ≠ .run ∧
    reading.front.ctl ≠ .draining := by decide

theorem witness_PostIsTakenAndDecided :
    actionCode 0x011F = 1 ∧ actionOperand 0x011F = 31 ∧ (asked 0x011F twoHeld).front.actionQ = [0x011F] ∧
    (asked 0x011F twoHeld).intakeReady = some (asked 0x011F twoHeld) ∧
    (∃ o, (asked 0x011F twoHeld).engine.order? 31 = some o) ∧ (asked 0x0101 twoHeld).engine.order? 1 = none :=
  ⟨by decide, by decide, rfl, rfl, ⟨_, rfl⟩, by decide⟩

/-- A POST of slot 31 whose read is in flight. -/
def posted : State := after (asked 0x011F base) .post

theorem witness_PostIsTakenAndDecided_decided :
    posted.front.intake = .reading 0x011F ∧ posted.front.ctl = .run ∧
    (∃ n s1, posted.await (fun n => n == .slotRead) = some (n, s1)) ∧
    (rawOrder [0]).phase ≠ 1 ∧ (rawOrder (slotWords 1)).phase = 1 ∧
    (∃ f, checkOrder base.front base.engine (rawOrder (slotWords 1)) = .ok f ∧ f.kind.immediate = false) ∧
    checkOrder base.front base.engine (rawOrder (slotWords 12)) = .error .badKind ∧
    (let x := { base.front with
       tables := { tables with drives := BySide.allDrives { record with aux := .doorLock } } }
     ∃ f, checkOrder x base.engine (rawOrder (slotWords 9)) = .ok f ∧ f.kind.immediate = true) ∧
    (after posted .stop).front.ctl ≠ .run :=
  ⟨by decide, by decide, ⟨_, _, rfl⟩, by decide, by decide, ⟨_, rfl, rfl⟩, rfl, ⟨_, rfl, rfl⟩, by decide⟩

theorem witness_AcceptedOrderJoinsTheTail : (fields .read).desk < base.engine.deskHeld.length := by decide

/-- A DETACH with pair 0 in a mode, and one that the log, its mode or a running order bars (R16). -/
def detaching (mode : PairMode) (kept : Side) (good : Option Side) (os : List Order) : Engine :=
  { (holding os).engine with
    pairs := ⟨{ bound := true, mode := mode, kept := kept, lost := 0 }, PairRecord.reset⟩,
    log := good.toList.map fun g =>
      { pair := .p0, good := g, place := { cylinder := 0, surface := 0, sector := 1 }, origin := 0,
        originKind := .write } }

theorem witness_ImmediateOrdersHaveTheirEffect :
    let f := { fields .detach with pairCopy := true }
    let waits := { order 5 { fields .mend with pairCopy := true } .boundWait with waiter := some .B }
    let e := detaching .attached .A (some .A) [waits]
    let e := { e with channels := e.channels.set .B { e.chan .B with order := some 5 } }
    let x := { base.front with tables := { tables with drives := BySide.allDrives { record with aux := .doorLock } } }
    Kind.lock.immediate = true ∧ Kind.unlock.immediate = true ∧ Kind.detach.immediate = true ∧
    x.active = true ∧ (x.record f.drive).aux = .doorLock ∧
    ((detaching .detached .A none []).pairs.get .p0).mode = .detached ∧
    ((detaching .detached .A none []).pairs.get .p0).kept = f.drive.side ∧
    (e.pairs.get .p0).mode ≠ .detached ∧ (e.held.map Order.slot).Nodup ∧
    (waits ∈ e.held ∧ waits.fields.pairCopy = true ∧ waits.fields.drive.pair = .p0 ∧ waits.finish = none) ∧
    waits.waiter = some .B ∧ (e.chan .B).order = some waits.slot := by decide

/-- What every checked READ of the tests meets: checks 1 to 6 (R11 to R13). -/
theorem witness_checks (raw : RawOrder) (h : raw = rawOrder (slotWords 1) ∨
    raw = rawOrder ((slotWords 1).set 6 1) ∨ raw = rawOrder ((slotWords 1).set 2 0x1100) ∨
    raw = rawOrder (((slotWords 1).set 2 0x1100).set 8 64) ∨ raw = rawOrder ((slotWords 1).set 2 0x0500)) :
    kindOf? raw.kind = some .read ∧ policyOf? raw.policy = some .take ∧
    Drive.ofNumber? raw.drive = some ⟨.A, .p0⟩ ∧ (base.front.record ⟨.A, .p0⟩).present = true ∧
    (∃ desk, base.front.tables.desks[raw.desk]? = some desk ∧ desk.enabled = true ∧
      base.engine.deskHeld.getD raw.desk 0 < desk.limit) ∧
    (raw.fields .read .take ⟨.A, .p0⟩).pairCopy = false ∧ Kind.read.writes = false ∧
    rangeOk (base.front.record ⟨.A, .p0⟩) (raw.fields .read .take ⟨.A, .p0⟩) = true := by
  rcases h with rfl | rfl | rfl | rfl | rfl <;>
    exact ⟨by decide, by decide, by decide, by decide, ⟨_, rfl, by decide⟩, by decide⟩

theorem witness_BufferCheckRefusesWhatDoesNotFit :
    (rawOrder ((slotWords 1).set 6 1)).buffer % 2 = 1 ∧ (rawOrder (slotWords 1)).buffer % 2 = 0 := by decide

theorem witness_StandingAndDropChecks :
    let f := (rawOrder (slotWords 1)).fields .read .take ⟨.A, .p0⟩
    bufferOk (base.front.record ⟨.A, .p0⟩) f = true ∧ base.engine.kindRefusal base.front f = none ∧
    (rawOrder ((slotWords 1).set 2 0x1100)).standing = true ∧
    (rawOrder (((slotWords 1).set 2 0x1100).set 8 64)).roundMask = 64 ∧
    (rawOrder ((slotWords 1).set 2 0x0500)).drop = true ∧
    ({ base.front.clock with phase := .closed }).phase = .closed := by decide

theorem witness_ChecksRefuseByTheFirstThatFails :
    (∃ f, checkOrder base.front base.engine (rawOrder (slotWords 1)) = .ok f) ∧
    let f := fields .detach
    let e (mode : PairMode) (good : Option Side) (os : List Order) : Engine := detaching mode .B good os
    let runs := order 5 { fields .write with pairCopy := true } .running
    (e .attached (some .B) []).kindRefusal base.front f = some .pairSplit ∧
    (e .detached none []).kindRefusal base.front f = some .pairSplit ∧
    (e .attached (some .A) [runs]).kindRefusal base.front f = some .pairBusy ∧
    (e .attached none []).kindRefusal base.front f = none ∧
    (base.front.record f.drive).aux ≠ .doorLock :=
  ⟨⟨_, rfl⟩, by decide⟩

/-- The slot of a READ, kind and desk, drive and flags, cylinder and surface, sector and count as given. -/
def slotOf (kind desk flags cylinder sector count : Nat) : RawOrder :=
  rawOrder ([1, lohi kind desk, BitVec.ofNat 16 flags, lohi cylinder 0, lohi sector count, 0, 0, 2] ++
    List.replicate 8 0)

/-- R11: one slot for each code of the checks 1 to 6, at a boundary of its field; the last two fail two checks
each, and the first of them names the code. -/
theorem witness_ChecksRefuseByTheFirstThatFails_codes :
    let x := { base.front with tables := { base.front.tables with
      desks := [{ enabled := true, cls := 2, limit := 2 }, { enabled := false, cls := 2, limit := 2 }] } }
    let e := detaching .attached .A none []
    let e (held : Nat) : Engine := { e with deskHeld := [held, 0, 0, 0, 0, 0, 0, 0] }
    let refused (held : Nat) (raw : RawOrder) (code : FinishCode) : Prop :=
      checkOrder x (e held) raw = .error code
    (refused 0 (slotOf 0 0 0 2 3 2) .badKind ∧ refused 0 (slotOf 12 0 0 2 3 2) .badKind ∧
      refused 0 (slotOf 1 0 0xC0 2 3 2) .badKind) ∧
    (refused 0 (slotOf 1 0 4 2 3 2) .badDrive ∧ refused 0 (slotOf 1 1 0 2 3 2) .badDesk ∧
      refused 0 (slotOf 1 2 0 2 3 2) .badDesk ∧ refused 2 (slotOf 1 0 0 2 3 2) .deskFull) ∧
    (refused 0 (slotOf 1 0 0x11 2 3 2) .notPaired ∧ refused 0 (slotOf 2 0 0 2 3 2) .notSingle) ∧
    (refused 1 (slotOf 1 0 0 77 1 1) .badRange ∧ refused 1 (slotOf 1 0 0 0 0 1) .badRange ∧
      refused 1 (slotOf 1 0 0 0 15 0) .badRange ∧ refused 1 (slotOf 6 0 0 77 1 1) .badRange) ∧
    (∃ f, checkOrder x (e 1) (slotOf 1 0 0 76 15 16) = .ok f) ∧
    refused 2 (slotOf 12 1 4 77 0 0) .badKind ∧ refused 2 (slotOf 1 0 4 77 0 0) .badDrive := by
  refine ⟨?_, ?_, ?_, ?_, ⟨_, rfl⟩, rfl, rfl⟩
  · decide
  · decide
  · decide
  · decide

/-- A WITHDRAW has finished the order of slot 31, which waited. -/
def finishing : State := after (asked 0x021F (holding [order 31 (fields .read) .queued])) .withdraw

theorem witness_FinishesAndCountsAreWritten :
    let waits := { order 31 { fields .mend with pairCopy := true } .boundWait with waiter := some .B }
    let e := (holding [waits]).engine
    let e := { e with channels := e.channels.set .B { e.chan .B with order := some 31 } }
    e.order? 31 = some waits ∧ (e.held.map Order.slot).Nodup ∧ waits.finish = none ∧ waits.waiter = some .B ∧
    (e.chan .B).order = some 31 ∧ (order 31 (fields .read) .queued).waiter = none ∧
    (∃ o, counted.engine.order? 0 = some o ∧
      ∀ d ∈ Drive.all, o.fields.covers d = true → 0 < (counted.engine.drive d).heldCount) ∧
    (∃ o, finishing.engine.order? 31 = some o ∧ o.finish ≠ none) :=
  ⟨by decide, by decide, by decide, by decide, by decide, by decide, ⟨_, rfl, by decide⟩, _, rfl, by decide⟩

/-- R7: the action after a WITHDRAW that finished its order waits for the count writes of that finish. -/
theorem test_withdraw_then_wait :
    finishing.front.intake = .finishing 31 ∧
    (let s := after finishing .doneBitSet
     s.engine.held = [] ∧ s.front.intake = .recording ∧ s.intakeReady.isSome ∧
     (s.intakeReady.map fun s => s.engine.port.queue.length) = some 0) := by decide

theorem witness_WithdrawAndRepostAreTaken :
    let s := asked 0x021F twoHeld
    s.front.ctl = .run ∧ s.front.actionQ = [0x021F] ∧ actionCode 0x021F = 2 ∧ actionOperand 0x021F = 31 ∧
    s.intakeReady = some s ∧ (s.engine.order? 31).map Order.state = some .running ∧
    (let e := s.engine.stopOrder s.front 31
     ∃ o, e.order? 31 = some o ∧ o.finish = none) ∧
    (let e := (working (fields .read) .seeking false).engine
     let e := (e.updOrder 31 fun o => { o with withdrawMark := some .withdrawn }).stopOrder base.front 31
     ∃ o, e.order? 31 = some o ∧ o.finish ≠ none) ∧
    (s.engine.order? 0).map Order.state = some .queued ∧ s.engine.order? 1 = none ∧
    ((after s .abortAll).engine.order? 0).map Order.finish = some (some .aborted) :=
  ⟨rfl, rfl, by decide, by decide, rfl, by decide, ⟨_, rfl, by decide⟩, ⟨_, rfl, by decide⟩, by decide⟩

/-- A standing order waits in slot 31. -/
def standingOrder : Order := order 31 { fields .read with standing := true } .waitingRound

theorem witness_WithdrawAndRepostAreTaken_repost :
    let s := asked 0x031F (holding [standingOrder, order 0 (fields .read) .queued])
    s.front.ctl = .run ∧ actionCode 0x031F = 3 ∧ actionOperand 0x031F = 31 ∧ s.intakeReady = some s ∧
    (s.engine.order? 31).map (fun o => (o.finish, o.fields.standing)) = some (none, true) ∧
    (s.engine.order? 0).map (fun o => (o.finish, o.fields.standing)) = some (none, false) ∧
    s.engine.order? 1 = none ∧ ((after s .abortAll).engine.order? 31).map Order.finish = some (some .aborted) :=
  ⟨rfl, by decide, by decide, rfl, by decide⟩

/-- A pass of the survey has offered channel B its step. -/
def offered (waiting : Nat) : State :=
  { base with engine := { base.engine with
    survey := { base.engine.survey with mode := .once, next := some ⟨.B, .p1⟩, waiting := waiting } } }

theorem witness_OtherActionsAreAnswered_survey :
    base.front.ctl = .run ∧ (asked 0x0408 base).intakeReady = some (asked 0x0408 base) ∧
    actionCode 0x0408 = 4 ∧ actionCode 0x050F = 5 ∧ actionCode 0x0600 = 6 ∧ base.engine.survey.mode = .off ∧
    (0x0408#16).getLsbD 3 = true ∧ (∀ k, k < 4 → (0x0400#16).getLsbD k = false) ∧
    (asked 0x0408 (offered 0)).engine.survey.mode ≠ .off :=
  ⟨rfl, rfl, by decide, by decide, by decide, rfl, by decide⟩

theorem witness_OtherActionsAreAnswered :
    actionCode 0x00FF = 0 ∧ actionCode 0x0700 = 7 ∧ actionOperand 0x0120 = 32 ∧
    (asked 0x0120 base).intakeReady = some (asked 0x0120 base) ∧
    (let s := { base with front := { base.front with ctl := .draining } }
     s.front.ctl = .draining ∧ (asked 0x0600 s).intakeReady = some (asked 0x0600 s)) ∧
    (∃ w, posted.front.intake = .reading w) ∧ (finishing.front.intake = .finishing 31) ∧
    (let s := { base with front := { base.front with intake := .recording } }
     s.front.intake = .recording ∧ s.await (fun n => n == .lastAction) = none) :=
  ⟨by decide, by decide, by decide, rfl, ⟨rfl, rfl⟩, ⟨_, rfl⟩, by decide⟩

theorem witness_RecordRequestsAreServedInOrder :
    let s := queued .statusWrite .surveyDone (queued .statusWrite (.attention ⟨.A, .p0⟩) base)
    let p : Notice → Bool := fun n => n == .surveyDone
    s.engine.port.inProgress = none ∧ s.engine.port.notices.all (fun m => !(p m)) = true ∧
    (∀ c, (s.engine.chan c).wordWaiting = false) ∧ (∃ n s1, s.await p = some (n, s1)) ∧
    (∃ q r, s.engine.port.queue = [q] ++ r :: [] ∧ (∀ m, q.notice = some m → p m = false) ∧
      r.notice = some .surveyDone ∧ p .surveyDone = true) ∧ 0xFFFFE + 1 < 0x100000 :=
  ⟨by decide, by decide, fun c => by cases c <;> decide, ⟨_, _, rfl⟩,
    ⟨_, _, rfl, fun m h => by cases h; decide, by decide⟩, by decide⟩

/-- Channel A with one word of a sector's transfer left. -/
def moving (toHost : Bool) : State :=
  onA (working (fields .read) .seeking false) fun ch =>
    { ch with transfers := [{ buf := .A, toHost := toHost, pos := 0, addr := 0x20000, words := 256, moved := 255 }] }

theorem witness_GrantPrefersWaitingWords :
    base.engine.port.inProgress = none ∧ ((moving true).engine.chan .A).wordWaiting = true ∧
    ((moving true).engine.chan .B).wordWaiting = false ∧ (base.engine.chan .A).wordWaiting = false ∧
    (queued .statusWrite .surveyDone base).engine.port.queue ≠ [] ∧ base.engine.port.queue = [] ∧
    (after (queued .statusWrite .surveyDone base) .busGrant).engine.port.inProgress = some .record ∧
    (let s := after (moving true) .busGrant
     s.engine.port.inProgress = some (.word .A) ∧ (s.engine.chan .A).transfers.map (fun t => (t.moved, t.words)) =
       [(255, 256)]) := by decide

theorem witness_BusErrorsEnterFaultOrEndTheOrder :
    (let s := after (queued .statusWrite .surveyDone base) .busGrant
     s.engine.port.inProgress = some .record ∧ s.front.ctl ≠ .fault ∧
     ∃ r failed, s.engine.port.queue = [r] ∧ r.words[0]? = some failed) ∧
    (moving true).front.ctl = .run ∧ (moving true).engine.port.inProgress = none ∧
    (∃ t, ((moving true).engine.chan .A).transfer? = some t ∧ t.toHost = true) ∧
    (∃ t, ((moving false).engine.chan .A).transfer? = some t ∧ t.toHost = false) ∧
    (∃ o, (moving true).engine.orderOf? .A = some o) ∧ ((moving true).engine.chan .B).wordWaiting = false ∧
    (after (moving true) .busGrant).engine.port.inProgress = some (.word .A) ∧ base.front.ctl ≠ .fault ∧
    ({ base.front with ctl := .fault }).ctl = .fault :=
  ⟨⟨by decide, by decide, _, _, rfl, rfl⟩, by decide, by decide, ⟨_, rfl, rfl⟩, ⟨_, rfl, rfl⟩, ⟨_, rfl⟩, by decide⟩

theorem witness_BufferTransfersComplete :
    (moving true).front.ctl = .run ∧
    (∃ t, ((moving true).engine.chan .A).transferOf? true = some t ∧
      ((moving true).engine.chan .A).transfers = [t]) ∧
    (∃ t, ((moving false).engine.chan .A).transferOf? false = some t ∧
      ((moving false).engine.chan .A).transfers = [t]) ∧
    (moving true).engine.port.inProgress = none ∧ ((moving true).engine.chan .B).wordWaiting = false ∧
    (moving false).engine.port.inProgress = none ∧ ((moving false).engine.chan .B).wordWaiting = false ∧
    ∃ o, (moving true).engine.orderOf? .A = some o :=
  ⟨by decide, ⟨_, rfl, rfl⟩, ⟨_, rfl, rfl⟩, by decide, by decide, by decide, by decide, _, rfl⟩

theorem witness_BitsFollowTheirWrites :
    (∃ s1, (queued .slotWrite (.doneBit 31 true .leaves true) twoHeld).await Notice.isDoneBit =
      some (.doneBit 31 true .leaves true, s1) ∧ ∃ o, s1.engine.order? 31 = some o) ∧
    (∃ s1, finishing.await Notice.isDoneBit = some (.doneBit 31 true .leaves false, s1) ∧
      s1.front.intake = .finishing 31 ∧ ∃ o, s1.engine.order? 31 = some o ∧ o.finish ≠ none) ∧
    (∃ s1, (queued .slotWrite (.doneBit 0 false .stays false) twoHeld).await Notice.isDoneBit =
      some (.doneBit 0 false .stays false, s1)) ∧
    let s := { base with front := { base.front with intake := .closing 0x011F } }
    (∃ s1, (queued .slotWrite (.doneBit 31 true .refused false) s).await Notice.isDoneBit =
      some (.doneBit 31 true .refused false, s1) ∧ s1.front.intake = .closing 0x011F) ∧
    ∃ s1, (queued .slotWrite (.doneBit 31 true .immediate false) s).await Notice.isDoneBit =
      some (.doneBit 31 true .immediate false, s1) :=
  ⟨⟨_, rfl, _, rfl⟩, ⟨_, rfl, rfl, _, rfl, by decide⟩, ⟨_, rfl⟩, ⟨_, rfl, rfl⟩, _, rfl⟩

theorem witness_BitsFollowTheirWrites_attention :
    (∃ n s1, (queued .statusWrite (.attention ⟨.B, .p1⟩) base).await (fun n => n == .attention ⟨.B, .p1⟩) =
      some (n, s1)) ∧
    (∃ n s1, (queued .statusWrite .surveyDone base).await (fun n => n == .surveyDone) = some (n, s1)) ∧
    (∃ n s1, (queued .headerWrite .configError base).await (fun n => n == .configError) = some (n, s1)) ∧
    ({ base.engine with closes := [1, 2] }).closes = [1, 2] :=
  ⟨⟨_, _, rfl⟩, ⟨_, _, rfl⟩, ⟨_, _, rfl⟩, rfl⟩

theorem witness_AgeTicksAndHeadUnloads :
    base.front.ctl = .run ∧ ((base.engine.setTimer ⟨.A, .p0⟩ (.running 1)).timers.drive ⟨.A, .p0⟩ = .running 1) ∧
    (∀ n, base.engine.timers.drive ⟨.B, .p0⟩ ≠ .running n) ∧
    (offered 9).engine.survey.next ≠ none ∧ (offered 9).engine.survey.step = none ∧
    base.engine.survey.next = none ∧ State.reset.front.ctl ≠ .run ∧ State.reset.front.ctl ≠ .draining :=
  ⟨rfl, rfl, fun n h => Timer.noConfusion h, by decide, rfl, rfl, by decide⟩

theorem witness_AgeTicksAndHeadUnloads_unloads :
    let run (s : State) : State := { s with engine := s.engine.setTimer ⟨.A, .p0⟩ (.running 0) }
    let touch (s : State) (b : Option Begin) : State :=
      onA s fun ch => { ch with touch := some { pair := .p0, first := false }, deferred := b }
    (run base).engine.timers.drive ⟨.A, .p0⟩ = .running 0 ∧ ((run base).engine.chan .A).free = true ∧
    ((run base).engine.chan .A).touch = none ∧
    ((run (working (fields .read) .seeking false)).engine.chan .A).free = false ∧
    (let ch := (onA base fun ch => { ch with state := .surveyStep, selected := some .p0 }).engine.chan .A
     ch.state = .surveyStep ∧ ch.selected = some .p0) ∧
    ((touch base none).engine.chan .A).touch = some { pair := .p0, first := false } ∧
    ((touch base none).engine.chan .A).deferred = none ∧
    ((touch base (some .positioning)).engine.chan .A).deferred = some .positioning ∧
    ((touch base (some .positioning)).engine.chan .A).stopping = false ∧
    (touch State.reset none).front.ctl = .config := by decide

theorem witness_SurveyStepsGoFirstAndEnd :
    (offered 10).front.ctl = .run ∧ ((offered 10).engine.chan .B).claim = none ∧
    (offered 10).engine.survey.step = none ∧ (offered 10).engine.survey.next = some ⟨.B, .p1⟩ ∧
    (offered 10).engine.boundFor? .B = none ∧ 10 ≤ (offered 10).engine.survey.waiting ∧
    (offered 9).engine.survey.waiting < 10 ∧
    (let s := holding [{ order 5 { fields .write with pairCopy := true } .boundWait with waiter := some .A }]
     (s.engine.boundFor? .B).map Order.slot = some 5) := by decide

/-- Channel A makes a survey step of drive 0, with ready samples counted; the step is in hand, or its survey has
been ended. -/
def stepping (samples : Nat) (ended : Bool) : State :=
  let s := onA base fun ch =>
    { ch with state := .surveyStep, selected := some .p0, act := .surveying .waitIndex samples }
  { s with engine := { s.engine with
    survey := if ended then { s.engine.survey with orphans := ⟨some ⟨.A, .p0⟩, none⟩ }
      else { s.engine.survey with mode := .once, step := some ⟨.A, .p0⟩ } } }

theorem witness_SurveyStepsGoFirstAndEnd_end :
    (stepping 2 false).front.ctl = .run ∧
    ((stepping 2 false).engine.chan .A).act = .surveying .waitIndex 2 ∧
    ((stepping 3 false).engine.chan .A).act = .surveying .waitIndex 3 ∧
    ((stepping 3 false).engine.chan .A).selected = some .p0 ∧
    (stepping 3 false).engine.survey.orphans.get .A = none ∧
    (stepping 3 false).engine.survey.step = some ⟨.A, .p0⟩ ∧
    (stepping 3 false).engine.survey.afterStep ⟨.A, .p0⟩ = none ∧
    (stepping 3 true).engine.survey.orphans.get .A = some ⟨.A, .p0⟩ ∧ (base.engine.chan .A).act = .none := by
  decide

theorem witness_RoundTickMakesOrdersDue :
    base.front.ctl = .run ∧ ({ base with front := { base.front with ctl := .draining } }).front.ctl = .draining ∧
    State.reset.front.ctl ≠ .run ∧ State.reset.front.ctl ≠ .draining ∧
    standingOrder.fallsDue (base.front.round + 1) = true := by decide

/-- The clock runs with one second left. -/
def lastSecond : State :=
  { twoHeld with front := { twoHeld.front with
    clock := { remaining := 1, running := true, phase := .near, window := 600 } } }

/-- The same at the entry to FAULT, with the fault record still to be written. -/
def lastSecondAtFault : State :=
  { lastSecond with
    front := { lastSecond.front with ctl := .fault, faultActive := true },
    engine := { lastSecond.engine with port :=
      { Port.reset with queue := [{ kind := .headerWrite, words := [], notice := none }] } } }

theorem witness_EditionCountsAndCloses :
    (bounded.front.ctl = .run ∧ bounded.front.clock.running = true ∧
      bounded.front.clock.remaining = 5997 + 2) ∧
    base.front.clock.running = false ∧
    lastSecond.HeldOnce ∧ lastSecond.front.ctl = .run ∧ lastSecond.front.clock.running = true ∧
    lastSecond.front.clock.remaining = 1 ∧
    (∃ o ∈ lastSecond.engine.held, o.fields.drop = true ∧ o.finish = none ∧ o.state ≠ .running) ∧
    ∀ o ∈ (holding [order 0 (fields .read) .queued]).engine.held, o.fields.drop = false :=
  ⟨by decide, by decide, ⟨by decide, by decide, fun w h => by cases h⟩, rfl, rfl, rfl, by decide⟩

theorem witness_EditionCountsAndCloses_fault :
    lastSecondAtFault.HeldOnce ∧ lastSecondAtFault.front.ctl = .fault ∧
    lastSecondAtFault.front.faultActive = true ∧
    lastSecondAtFault.front.clock.running = true ∧ lastSecondAtFault.front.clock.remaining = 1 ∧
    lastSecondAtFault.engine.port.queue ≠ [] :=
  ⟨⟨by decide, by decide, fun w h => by cases h⟩, rfl, rfl, rfl, rfl, by decide⟩

/-- Channel A claims slot 0. -/
def claims (f : OrderFields) : State :=
  onA (holding [order 0 f .queued]) fun ch => { ch with claim := some { slot := 0, held := true } }

theorem witness_ClaimIsGrantedOrTaken :
    let bind (s : State) : State := { s with engine := { s.engine with
      pairs := ⟨{ PairRecord.reset with bound := true }, PairRecord.reset⟩ } }
    let one := claims (fields .read)
    let two := bind (claims { fields .read with pairCopy := true })
    let write (n : Nat) : OrderFields := { fields .write with pairCopy := true, count := n }
    let noted (n : Nat) : Engine := (paired (holding [order 0 (write n) .queued])).engine
    let e (s : State) : Engine := s.engine.setChan .A { s.engine.chan .A with claim := none }
    one.front.ctl = .run ∧ (one.engine.chan .A).claim = some { slot := 0, held := true } ∧ (one.engine.chan .A).free = true ∧
    (∃ o, one.engine.order? 0 = some o ∧ (e one).eligible one.front o .A = true ∧
      (((e one).planOf o).a && ((e one).planOf o).b) = false) ∧
    (∃ o, two.engine.order? 0 = some o ∧ (e two).eligible two.front o .A = true ∧
      (((e two).planOf o).a && ((e two).planOf o).b) = true) ∧
    (∃ o, (claims { fields .read with drive := ⟨.B, .p0⟩ }).engine.order? 0 = some o ∧
      (e (claims { fields .read with drive := ⟨.B, .p0⟩ })).eligible base.front o .A = false) ∧
    (∃ o, (noted 3).order? 0 = some o ∧
      ((noted 3).passesButRoom base.front o .A && !(noted 3).hasRoom base.front o && !o.roomNote) = true) ∧
    (∃ o, (noted 2).order? 0 = some o ∧ (noted 2).hasRoom base.front o = true) ∧
    ((noted 3).held.map Order.slot).Nodup :=
  ⟨by decide, by decide, by decide, ⟨_, rfl, by decide⟩, ⟨_, rfl, by decide⟩,
    ⟨_, rfl, by decide⟩, ⟨_, rfl, by decide⟩, ⟨_, rfl, by decide⟩, by decide⟩

/-- The claimed order has finished, left the list, and its slot been posted again. -/
def reposted : State :=
  let s := claims (fields .read)
  let e := (s.engine.updOrder 0 fun o => { o with finish := some .withdrawn }).leaveList s.front 0
  { s with engine := { e with held := [order 0 (fields .read) .queued] } }

theorem witness_ClaimIsGrantedOrTaken_left :
    let e := (claims (fields .read)).engine.updOrder 0 fun o => { o with finish := some .withdrawn }
    (∃ o, e.order? 0 = some o ∧ o.finish ≠ none) ∧ (e.chan .B).claim = none ∧
    (e.chan .A).claim = some { slot := 0, held := true } ∧
    (reposted.engine.chan .A).claim = some { slot := 0, held := false } ∧ reposted.front.ctl = .run ∧
    (let s := { claims (fields .read) with front := { base.front with ctl := .draining } }
     s.front.ctl = .draining ∧ (s.engine.chan .A).claim ≠ none) :=
  ⟨⟨_, rfl, by decide⟩, by decide⟩

/-- R48: a claim for an order that has left the list is answered taken, though its slot holds another order;
the channel then chooses again. -/
theorem test_claim_of_a_reposted_slot :
    let t := after reposted (.claim .A)
    t.engine.held.map Order.state = [.queued] ∧
    (t.engine.chan .A).claim = some { slot := 0, held := true } ∧ (t.engine.chan .A).order = none := by decide

theorem witness_GrantsAndTakeoversBindTheOrder :
    let o := order 0 (fields .read) .queued
    (holding [o]).engine.order? o.slot = some o ∧
    ((onA (holding [o]) fun ch => { ch with order := some 5 }).engine.chan .A).free = false ∧
    ((holding [o]).engine.chan .B).free = true := by decide

theorem witness_GrantsAndTakeoversBindTheOrder_mend :
    let o := order 0 (fields .mend) .queued
    let e := (paired (holding [o])).engine
    let d := detaching .detached .B none [o]
    e.order? o.slot = some o ∧ (e.chan .B).free = true ∧ (∃ t, e.fixTurn base.front o = some t) ∧
    ({ e with log := [] }).fixTurn base.front o = none ∧ (e.log.filter fun l => l.pair == o.pair) ≠ [] ∧
    (e.pairs.get o.pair).mode = .attached ∧ (d.pairs.get o.pair).mode ≠ .attached ∧
    d.order? o.slot = some o :=
  ⟨by decide, by decide, ⟨_, rfl⟩, by decide⟩

/-- Channel A waits with a PAIR order of a kind for channel B, its own selection good. -/
def waitingFor (kind : Kind) (act : Act) (failed : Option FinishCode) : State :=
  let o := order 0 { fields kind with pairCopy := true } .boundWait
  onA (holding [{ o with waiter := some .A, plan := BySide.both true }]) fun ch =>
    { ch with
      state := .partnerWait, order := some 0, selected := some .p0, selectedWell := true, act := act,
      heldFailure := failed, positioning := { ch.positioning with target := 2, surface := 0 } }

theorem witness_GrantsAndTakeoversBindTheOrder_takeover :
    let s := waitingFor .write .holding none
    let ch := s.engine.chan .A
    (∃ o, s.engine.order? 0 = some o ∧ o.kind ≠ .mend ∧ o.kind.loadsHead = true ∧
      ch.positioning.target = o.firstTrack s.front / (o.geometry s.front).surfaces ∧
      ch.positioning.surface = o.firstTrack s.front % (o.geometry s.front).surfaces) ∧
    ch.order = some 0 ∧ ch.deferred = none ∧ ch.heldFailure = none ∧ ch.act = .holding ∧ ch.stopping = false ∧
    ((waitingFor .write .none (some .notReady)).engine.chan .A).heldFailure = some .notReady ∧
    (∃ o, (waitingFor .mend .holding none).engine.order? 0 = some o ∧ o.kind = .mend ∧
      (waitingFor .mend .holding none).engine.fixTurn s.front o ≠ none) ∧
    (let e := { (waitingFor .mend .holding none).engine with
       pairs := ⟨{ PairRecord.reset with bound := true }, PairRecord.reset⟩, log := [] }
     ∃ o, e.order? 0 = some o ∧ e.fixTurn s.front o = none) :=
  ⟨⟨_, rfl, by decide⟩, by decide, by decide, by decide, by decide, by decide, by decide, ⟨_, rfl, by decide⟩,
    _, rfl, by decide⟩

theorem witness_GrantsAndTakeoversBindTheOrder_join :
    let s (a : Act) : State := waitingFor .mend a none
    let o : Order := order 0 { fields .mend with pairCopy := true } .boundWait
    let turn : Order := { o with turn := some { track := 5, set := [] } }
    (∀ a ∈ [Act.settling, .loading, .confirming 0, .confirming 1, .holding, .stepping true, .stepping false],
      ((s a).engine.chan .A).act = a ∧ ((s a).engine.chan .A).heldFailure = none ∧
      ((s a).engine.chan .A).stopping = false) ∧
    ((s .settling).engine.chan .A).positioning.target = 2 ∧
    turn.firstTrack base.front / (turn.geometry base.front).surfaces = 2 ∧
    turn.firstTrack base.front % (turn.geometry base.front).surfaces = 1 ∧
    o.firstTrack base.front / (o.geometry base.front).surfaces ≠ 2 := by decide

/-- Channel A is bound to slot 31 and about to select drive 0, which it knows in a state; its lines as given. -/
def beginning (kind : Kind) (st : DriveState) (l : Lines) (stop : Bool) : State :=
  let s := onA (holding [order 31 (fields kind) .running]) fun ch =>
    { ch with order := some 31, act := .selecting, stopping := stop }
  { s with
    front := { s.front with pins := BySide.allDrives l },
    engine := s.engine.setDrive ⟨.A, .p0⟩ { readyOn 2 with state := st } }

/-- A ready drive's lines, track 0 active or not. -/
def readyLines (trk0 : Bool) : Lines := { noLines with ready := true, trk0 := trk0 }

theorem witness_RunsBegin :
    let s := beginning .read .ready (readyLines false) false
    let d : Drive := ⟨.A, .p0⟩
    (∃ o, s.engine.orderOf? .A = some o ∧ o.state = .running ∧ o.finish = none ∧ o.fields.covers d = true ∧
      o.pair = .p0) ∧
    (s.engine.drive d).held = some (s.front.pins.drive d).ready ∧ (s.front.record d).debounce = false ∧
    (s.engine.drive d).state = .ready ∧ (s.engine.chan .A).stopping = false ∧
    ((beginning .read .ready (readyLines false) true).engine.chan .A).stopping = true ∧
    ((beginning .read .ready noLines false).engine.drive d).held ≠
      some ((beginning .read .ready noLines false).front.pins.drive d).ready ∧
    ((beginning .read .offSpeed (readyLines false) false).engine.drive d).state = .offSpeed ∧
    (let x := { s.front with
       tables := { tables with drives := BySide.allDrives { record with aux := .changeSense } },
       pins := BySide.allDrives { readyLines false with aux := true } }
     (x.record d).aux = .changeSense ∧ (x.pins.drive d).aux = true) :=
  ⟨⟨_, rfl, by decide⟩, by decide⟩

/-- R152, R104, R108: from such a selection on cylinder 2 a READ of cylinder 2 comes to its settle with no step;
a READ with the drive not ready finds NOT_READY, and its channel is IDLE again. -/
theorem test_run_begins :
    let e (l : Lines) : Engine :=
      let s := beginning .read .ready l false
      s.engine.beginPositioning s.front .A
    ((e (readyLines false)).chan .A).state = .positioning ∧ ((e (readyLines false)).chan .A).selected = some .p0 ∧
    ((e noLines).chan .A).state = .idle ∧ ((e noLines).held.map Order.finish) = [some .notReady] := by decide

theorem witness_RunsBegin_positioning :
    let s (kind : Kind) (trk0 : Bool) : State :=
      onA (beginning kind .ready (readyLines trk0) false) fun ch => { ch with selected := some .p0 }
    let d : Drive := ⟨.A, .p0⟩
    ((s .read false).engine.chan .A).selected = some .p0 ∧
    ((s .recalibrate false).engine.orderOf? .A).map Order.kind = some .recalibrate ∧
    ((s .recalibrate false).front.pins.drive d).trk0 = false ∧
    ((s .recalibrate true).front.pins.drive d).trk0 = true ∧
    ((s .read false).engine.orderOf? .A).map Order.kind = some .read ∧
    ((s .read false).engine.drive d).cylinder = some 2 := by decide

theorem witness_RunsBegin_tests :
    let e (f : OrderFields) (k : Knowledge) (first : Option Byte) : Engine :=
      ((working f .none false).engine.setDrive ⟨.A, .p0⟩ k).updChan .A fun ch =>
        { ch with run := { ch.run with firstId := first } }
    let x := { base.front with
      tables := { tables with drives := BySide.allDrives { record with aux := .twoSidedSense } } }
    let o (f : OrderFields) : Order := order 31 f .running
    let protect := { readyOn 2 with writeProtected := true }
    ((e (fields .write) protect none).drive ⟨.A, .p0⟩).writeProtected = true ∧ (o (fields .write)).kind = .write ∧
    (let f := { fields .read with surface := 1 }
     (o f).firstTrack x % ((o f).geometry x).surfaces = 1 ∧ (x.record ⟨.A, .p0⟩).aux = .twoSidedSense ∧
     ((e f (readyOn 2) none).drive ⟨.A, .p0⟩).twoSided = false) ∧
    ((e { fields .read with volume := 9 } (readyOn 2) (some 7)).chan .A).run.firstId = some 7 ∧
    (o { fields .read with volume := 9 }).fields.volume ≠ 7 ∧ (o (fields .read)).fields.volume = 0 ∧
    ((e (fields .seek) (readyOn 2) none).chan .A).run.firstId = none := by decide

/-- R102, R111, R127: a side that fails a test when its positioning has ended goes through TRACK_PASS: the
header shows it, with slot 31, before IDLE with no slot. -/
theorem test_tests_are_made_in_track_pass :
    let s := onA (working (fields .write) (.confirming 1) true) fun ch => { ch with state := .positioning }
    let e := s.engine.setDrive ⟨.A, .p0⟩ { readyOn 2 with writeProtected := true }
    let o := order 31 (fields .write) .running
    let writes := ((e.startSide s.front .A o).port.queue.flatMap Request.words).filter fun w => w.addr == 0x3A018
    writes.map Access.data = [some 0x1F03, some 0xFF00] := by decide

/-- Slot 31's run on drive 0 is at its end; the order of a kind, standing or not, as given. -/
def ending (f : OrderFields) (g : Order → Order) : State :=
  let s := paired (working f .none false)
  { s with engine := { s.engine.updOrder 31 g with log := [] } }

theorem witness_RunsEnd :
    let s := ending (fields .read) id
    (s.engine.chan .A).order = some 31 ∧ (s.engine.chan .B).order ≠ some 31 ∧
    (let e := s.engine.updChan .B fun ch => { ch with order := some 31 }
     (e.chan .B).order = some 31) ∧
    (s.engine.chan .A).selected = some .p0 ∧ (s.engine.drive ⟨.A, .p0⟩).loaded = true ∧
    (s.front.record ⟨.A, .p0⟩).unload = 20 ∧
    (∃ o, s.engine.order? 31 = some o ∧ o.mirrored = false ∧ o.withdrawMark = none ∧ o.changedMedium = false ∧
      o.fields.standing = false) ∧
    (∃ o, (s.engine.resolveRest s.front 31).order? 31 = some o ∧ o.finish = none ∧ o.pendingCode = none ∧
      o.leftFailure s.front = none ∧ o.sideFailure.a.or o.sideFailure.b = none ∧ o.kind ≠ .mend) ∧
    (let e := (mirrored .read (.failed .dataCheck) .notBegun).engine
     ∃ o, (e.resolveRest s.front 31).order? 31 = some o ∧ o.leftFailure s.front ≠ none) :=
  ⟨by decide, by decide, by decide, by decide, by decide, by decide, ⟨_, rfl, by decide⟩, ⟨_, rfl, by decide⟩,
    _, rfl, by decide⟩

/-- R21, R67 to R70, R72, R79, R87: the code of a run by what it met; a withdraw mark goes first. -/
theorem test_codes_of_a_run :
    let codes (f : OrderFields) (g : Order → Order) : List (Option FinishCode) :=
      let s := ending f g
      (s.engine.release s.front .A).held.map Order.finish
    let pl : Place := { cylinder := 2, surface := 0, sector := 3 }
    codes (fields .read) id = [some .ok] ∧
    codes (fields .read) (fun o => { o with stale := true }) = [some .staleRead] ∧
    codes (fields .read) (fun o => { o with pendingCode := some (.dataCheck, pl), stale := true }) =
      [some .dataCheck] ∧
    codes (fields .write) (fun o => { o with changedMedium := true }) = [some .mediumChanged] ∧
    codes (fields .write) (fun o => { o with changedMedium := true, withdrawMark := some .withdrawn }) =
      [some .withdrawn] ∧
    codes (fields .seek) (fun o => { o with sideFailure := ⟨some .seekError, none⟩ }) = [some .seekError] ∧
    codes { fields .read with standing := true } id = [none] := by decide

/-- R110, R114, R116: a join takes channel A from a head load wait to the seek of a MEND's other track, HLD up; a
stop in that seek drops HLD with the step's end, the head still unloaded. -/
theorem test_stop_after_a_load_wait_given_up :
    let s := waitingFor .mend .loading none
    let e : Engine := ((s.engine.updChan .A fun ch => { ch with headLoad := true }).setDrive ⟨.A, .p0⟩
      { readyOn 2 with loaded := false }).setTurn (order 0 (fields .mend) .running)
      { track := 20, set := [] }
    let joined := e.joinWaiter s.front .A 0
    let left := (joined.stopChannel s.front .A 0).stepEnd s.front .A false
    (joined.chan .A).act = .stepping false ∧ (joined.chan .A).headLoad = true ∧
    (left.chan .A).selected = none ∧ (left.chan .A).headLoad = false ∧ (left.drive ⟨.A, .p0⟩).loaded = false := by
  decide

theorem witness_RunsEnd_mend :
    let turn (t : Nat) (o : Order) : Order := { o with turn := some { track := t, set := [] } }
    let a := ending (fields .mend) (turn 4)
    let held (s : State) : Engine := s.engine.resolveRest s.front 31
    let detached (s : State) : Engine :=
      { s.engine with
        pairs := ⟨{ PairRecord.reset with bound := true, mode := .detached }, PairRecord.reset⟩ }
    let d (t : Nat) : Engine := detached (ending (fields .mend) (turn t))
    (∃ o, (held a).order? 31 = some o ∧ o.finish = none ∧ o.kind = .mend ∧ o.withdrawMark = none ∧
      o.changedMedium = false ∧ o.pendingCode = none ∧ o.sideFailure.a.or o.sideFailure.b = none ∧
      ((held a).pairs.get o.pair).mode = .attached) ∧
    (held a).log = [] ∧ (∃ l ∈ (paired a).engine.log, l.pair = .p0) ∧ a.front.ctl = .run ∧
    ((d 153).pairs.get .p0).mode = .detached ∧
    ((d 153).order? 31).map Order.turn = some (some { track := 153, set := [] }) ∧
    153 + 1 = 77 * 2 ∧ 4 + 1 ≠ 77 * 2 ∧ ((record.cylinders, record.surfaces) = (77, 2)) :=
  ⟨⟨_, rfl, by decide⟩, by decide⟩

theorem witness_StepTimeEndMovesTheHead :
    let seek (target : Nat) (inward stop : Bool) : State :=
      onA (working (fields .read) (.stepping false) false) fun ch =>
        { ch with
          dirInward := inward, stopping := stop,
          positioning := { ch.positioning with target := target, stepped := true } }
    let home (steps target : Nat) : State :=
      onA (working (fields .read) (.stepping true) false) fun ch =>
        { ch with positioning := { ch.positioning with target := target, steps := steps, stepped := true } }
    (seek 76 true false).front.ctl = .run ∧ ((seek 76 true false).engine.chan .A).selected = some .p0 ∧
    ((seek 76 true false).engine.chan .A).act = .stepping false ∧
    ((seek 76 true false).engine.drive ⟨.A, .p0⟩).cylinder = some 2 ∧
    ((seek 3 true false).engine.chan .A).positioning.target = 3 ∧
    ((seek 1 false true).engine.chan .A).stopping = true ∧ ((seek 1 false true).engine.chan .A).touch = none ∧
    ((seek 1 false true).engine.chan .A).transfers = [] ∧
    ((home 84 0).engine.chan .A).act = .stepping true ∧ ((home 84 0).engine.chan .A).positioning.steps = 84 ∧
    ((home 85 0).engine.chan .A).positioning.steps = 85 ∧ ((home 85 0).engine.chan .A).stopping = false ∧
    ((home 1 1).engine.chan .A).positioning.target = 1 := by decide

theorem witness_SettleAndHeadLoadGoOn :
    let s (k : Kind) (a : Act) : State := working (fields k) a false
    (s .read .settling).front.ctl = .run ∧ ((s .read .settling).engine.chan .A).selected = some .p0 ∧
    ((s .read .settling).engine.orderOf? .A).map Order.kind = some .read ∧ Kind.read.loadsHead = true ∧
    ((s .read .settling).engine.drive ⟨.A, .p0⟩).loaded = true ∧
    ((s .read .settling).engine.setDrive ⟨.A, .p0⟩ { readyOn 2 with loaded := false }).drive ⟨.A, .p0⟩ =
      { readyOn 2 with loaded := false } ∧
    Kind.seek.loadsHead = false ∧ ((s .seek .settling).engine.chan .A).positioning.why ≠ .early ∧
    ((onA (s .seek .settling) fun ch =>
      { ch with positioning := { ch.positioning with why := .early } }).engine.chan .A).positioning.why =
      .early ∧
    ((s .read .loading).engine.chan .A).act = .loading := by decide

/-- The ID field of a sector of the track in hand: cylinder 2, surface 0. -/
def idBytes (sector : Nat) : List Byte := idField 7 2 0 sector 2

/-- R122, R123, R126: an ID field with a good check word is recognised; with one bit of it changed it is not. -/
theorem test_id_field :
    idReadOf (idBytes 3) = some { volume := 7, cylinder := 2, surface := 0, sector := 3, sizeCode := 2 } ∧
    idReadOf ((idBytes 3).set 4 2) = none := by decide +kernel

theorem witness_SettleAndHeadLoadGoOn_confirm :
    let s (target : Nat) (again : Bool) : State :=
      onA (working (fields .read) (.confirming 0) false) fun ch =>
        { ch with
          state := .positioning, positioning := { ch.positioning with target := target, again := again } }
    let ch := (s 2 false).engine.chan .A
    ch.act = .confirming 0 ∧ ch.stopping = false ∧ ch.state ≠ .surveyStep ∧ ch.writeGate = false ∧
    ((s 2 false).engine.drive ⟨.A, .p0⟩).loaded = true ∧
    syncNeeded ((s 2 false).front.record ⟨.A, .p0⟩).mfm = 8 ∧
    ch.positioning.target = 2 ∧ ((s 3 false).engine.chan .A).positioning.target = 3 ∧
    ((s 3 false).engine.chan .A).positioning.again = false ∧
    ((s 3 true).engine.chan .A).positioning.again = true ∧
    ∃ id, idReadOf (idBytes 3) = some id ∧ id.cylinder = 2 :=
  ⟨by decide, by decide, by decide, by decide, by decide, by decide, by decide, by decide, by decide, by decide,
    _, test_id_field.1, rfl⟩

theorem witness_IdFieldStartsTheSectorItMatches :
    let s := working (fields .read) .seeking false
    let w := onA (working (fields .write) .seeking true) fun ch =>
      { ch with buffers := ⟨{ use := .ready 0 0x35, data := [] }, { use := .ready 1 0x35, data := [] }⟩ }
    let v := onA (working { fields .read with volume := 9 } .seeking false) fun ch =>
      { ch with run := { ch.run with volumeTested := false } }
    let ch := s.engine.chan .A
    s.front.ctl = .run ∧ ch.selected = some .p0 ∧ (s.engine.drive ⟨.A, .p0⟩).loaded = true ∧
    ch.state = .trackPass ∧ ch.writeGate = false ∧ ch.act = .seeking ∧ ch.run.volumeTested = true ∧
    (∃ id, idReadOf (idBytes 3) = some id ∧ id.cylinder = trackCylinder record ch.run.track ∧
      id.surface = trackSurface record ch.run.track ∧ id.sizeCode = record.sizeCode) ∧
    (∃ it, (ch.run.items.find? fun it => it.sought ch.run.verify .read && it.sector == 3) = some it ∧
      it.st = .wanted ∧ it.write = false) ∧
    (ch.run.items.find? fun it => it.sought ch.run.verify .read && it.sector == 15) = none ∧
    ch.readBuffer? = some .A ∧
    (∃ it, ((w.engine.chan .A).run.items.find? fun it => it.sought false .write && it.sector == 3) = some it ∧
      it.write = true) ∧
    (w.engine.chan .A).readyBuffer? 0 = some (.A, 0x35) ∧ (w.engine.chan .A).use .A ≠ .free ∧
    (w.engine.chan .A).use .B ≠ .free ∧ (w.engine.drive ⟨.A, .p0⟩).state = .ready ∧
    (v.engine.chan .A).run.volumeTested = false ∧
    (v.engine.orderOf? .A).map (fun o => o.volumeDiffers 7) = some true ∧ ch.stopping = false ∧
    (s.front.record ⟨.A, .p0⟩).mfm = true ∧
    ({ ch with stopping := true }).stopping = true :=
  ⟨by decide, by decide, by decide, by decide, by decide, by decide, by decide,
    ⟨_, test_id_field.1, by decide⟩, ⟨_, rfl, by decide⟩, by decide, by decide,
    ⟨_, rfl, by decide⟩, by decide⟩

theorem witness_IdFieldStartsTheSectorItMatches_bad :
    let s := working (fields .read) .seeking false
    let v := onA (working { fields .write with verify := true } .seeking true) fun ch => { ch with state := .verifyPass }
    let w := onA (working (fields .read) (.confirming 0) false) fun ch => { ch with state := .positioning }
    let bad := (idBytes 3).set 4 2
    bad.head? = some 0x3C#8 ∧ checkWord bad ≠ 0 ∧ (bad.take 7).length ≠ 8 ∧
    (if (s.front.record ⟨.A, .p0⟩).mfm then 8 else 4) ≤ 8 ∧ s.front.ctl = .run ∧
    (∃ o, s.engine.orderOf? .A = some o) ∧
    (∀ s' ∈ [s, v, w], (s'.engine.chan .A).selected = some .p0 ∧ (s'.engine.drive ⟨.A, .p0⟩).loaded = true ∧
      (s'.engine.chan .A).writeGate = false ∧ (s'.engine.chan .A).stopping = false) ∧
    (s.engine.chan .A).state = .trackPass ∧ (s.engine.chan .A).act = .seeking ∧
    (v.engine.chan .A).state = .verifyPass ∧ (w.engine.chan .A).act = .confirming 0 ∧
    (w.engine.chan .A).state = .positioning := by
  refine ⟨by decide +kernel, by decide +kernel, by decide +kernel, by decide, by decide, ⟨_, rfl⟩, by decide⟩

/-- Channel A seeks the first sector of its track, which stands in a state, in a track or a verify pass. -/
def sought (f : OrderFields) (st : ItemState) (write verify : Bool) (use : BufferUse) : State :=
  onA (working f .seeking write) fun ch =>
    { ch with
      state := if verify then .verifyPass else .trackPass,
      run := { ch.run with
        verify := verify, items := [{ Item.fresh 0 3 write with st := st }, Item.fresh 1 4 write] },
      buffers := BySide.both { use := use, data := [] } }

/-- The sector the ID field of sector 3 finds. -/
def foundItem (s : State) : Option Item :=
  (s.engine.orderOf? .A).bind fun o =>
    (s.engine.chan .A).run.items.find? fun it => it.sought (s.engine.chan .A).run.verify o.kind && it.sector == 3

theorem witness_SoughtSectorsAreReadWrittenOrPassedOver :
    let back := { fields .write with verify := true }
    let check := sought (fields .check) .wanted false false .free
    let ch := check.engine.chan .A
    check.front.ctl = .run ∧ ch.selected = some .p0 ∧ (check.engine.drive ⟨.A, .p0⟩).loaded = true ∧
    ch.state = .trackPass ∧ ch.writeGate = false ∧ ch.act = .seeking ∧ ch.stopping = false ∧
    ch.run.volumeTested = true ∧ syncNeeded (check.front.record ⟨.A, .p0⟩).mfm = 8 ∧
    (foundItem check).map (fun it => (it.st, it.write)) = some (.wanted, false) ∧
    ch.readBuffer? = some .A ∧
    ((sought (fields .check) .wanted false false .reading).engine.chan .A).readBuffer? = none ∧
    (foundItem (sought back .written true true .free)).map Item.st = some .written ∧
    ((sought back .written true true .free).engine.chan .A).state = .verifyPass ∧
    (foundItem (sought { fields .mend with pairCopy := true } .wanted false false (.holding 5 0x35))).map Item.st =
      some .wanted ∧
    ((sought (fields .mend) .wanted false false (.holding 5 0x35)).engine.chan .A).holds? ≠ none := by decide

theorem witness_SoughtSectorsAreReadWrittenOrPassedOver_write :
    let w := sought (fields .write) .wanted true false (.ready 0 0x35)
    let r := sought (fields .retire) .wanted true false .free
    let m := let s := sought { fields .read with pairCopy := true } .wanted false false .free
      { s with engine := s.engine.updOrder 31 fun o =>
        ({ o with mirrored := true }).setEntry .B 0 .done }
    (foundItem w).map (fun it => (it.st, it.write)) = some (.wanted, true) ∧
    (w.engine.chan .A).readyBuffer? 0 = some (.A, 0x35) ∧
    ((sought (fields .write) .wanted true false .free).engine.chan .A).readyBuffer? 0 = none ∧
    (foundItem r).map (fun it => (it.st, it.write)) = some (.wanted, true) ∧
    (∀ s, s = w ∨ s = r → (∃ o, s.engine.orderOf? .A = some o ∧ o.pair = PairId.p0 ∧ o.state = .running ∧
      o.finish = none ∧ o.writesOn .A = true) ∧ (s.engine.drive ⟨.A, .p0⟩).state = .ready ∧
      (s.engine.drive ⟨.A, .p0⟩).writeProtected = false) ∧
    (foundItem m).map (fun it => (it.st, it.write)) = some (.wanted, false) ∧
    (∃ o, m.engine.orderOf? .A = some o ∧ o.mirrored = true ∧ (o.entry .B 0).reported = true) ∧
    (let f := sought { fields .format with volume := 8 } .written true true .free
     (foundItem f).map Item.st = some .written ∧
       ∃ id, idReadOf (idBytes 3) = some id ∧ id.volume ≠ (8 : Byte)) :=
  ⟨by decide, by decide, by decide, by decide,
    fun s h => by rcases h with rfl | rfl <;> exact ⟨⟨_, rfl, by decide⟩, by decide⟩,
    by decide, ⟨_, rfl, by decide⟩, by decide, _, test_id_field.1, by decide⟩

/-- Channel A reads a data field of the shortest kind, 131 bytes, after a number of failed attempts. -/
def fmReading (tries : Nat) : State :=
  let s := onA (working (fields .read) (.reading 0 false .A 0) false) fun ch =>
    { ch with run := { ch.run with items := [{ Item.fresh 0 3 false with tries := tries }, Item.fresh 1 4 false] } }
  { s with front := { s.front with tables := { tables with drives := BySide.allDrives recordFm } } }

/-- Eight zero bytes of a data field. -/
def zeros8 : List Byte := [0, 0, 0, 0, 0, 0, 0, 0]

/-- Groups of eight zero bytes before a tail. -/
def zeroGroups : Nat → List Byte → List Byte
  | 0, tail => tail
  | n + 1, tail => zeros8 ++ zeroGroups n tail

/-- The check register after each group of zeros, as worked by hand. -/
def linked : Word → List Word → Bool
  | _, [] => true
  | w, v :: vs => zeros8.foldl crcByte w == v && linked v vs

theorem crc_zeroGroups (tail : List Byte) : ∀ (vs : List Word) (w : Word), linked w vs = true →
    (zeroGroups vs.length tail).foldl crcByte w = tail.foldl crcByte (vs.getLastD w)
  | [], _, _ => rfl
  | v :: vs, w, h => by
    simp only [linked, Bool.and_eq_true, beq_iff_eq] at h
    rw [List.length_cons, zeroGroups, List.foldl_append, h.1, crc_zeroGroups tail vs v h.2, List.getLastD_cons]

/-- A data field of 128 zero bytes with its check word. -/
def zeroField : List Byte := 0x35#8 :: zeroGroups 16 [0xE8, 0x7D]

/-- The check register along the zeros of a data field under the DATA mark. -/
def zeroLinks : List Word :=
  [0x9BBC, 0xB685, 0xE9C8, 0xCC88, 0x22B2, 0x6659, 0xCC28, 0xE7BD,
    0xAF5F, 0x3F55, 0x0C2E, 0x4DC9, 0xFD6D, 0x42F9, 0x7D22, 0xE87D]

/-- R123: a data field of zeros, worked by hand to its check word, reads good. -/
theorem test_data_field :
    zeroField.length = 131 ∧ zeroField.head? = some 0x35#8 ∧ checkWord zeroField = 0 := by
  refine ⟨by decide +kernel, rfl, ?_⟩
  refine (crc_zeroGroups [0xE8, 0x7D] zeroLinks 0x8706 (by decide +kernel)).trans ?_
  decide +kernel

/-- The same under the RETIRED mark. -/
def retiredZeros : List Byte := 0x36#8 :: zeroGroups 16 [0xB3, 0x70]

/-- The check register along the zeros of a data field under the RETIRED mark. -/
def retiredLinks : List Word :=
  [0xB6F8, 0x87A3, 0x2714, 0x4ACD, 0xFBB3, 0xB1D4, 0x7C26, 0x6E68,
    0x331E, 0x8B5A, 0x32F7, 0xFFA6, 0xF065, 0x8730, 0x6314, 0xB370]

/-- R122, R123: a field of zeros under the RETIRED mark, worked by hand to its check word, reads good. -/
theorem test_retired_field :
    retiredZeros.length = 131 ∧ retiredZeros.head? = some 0x36#8 ∧ checkWord retiredZeros = 0 := by
  refine ⟨by decide +kernel, rfl, ?_⟩
  refine (crc_zeroGroups [0xB3, 0x70] retiredLinks 0xB765 (by decide +kernel)).trans ?_
  decide +kernel

/-- Channel A reads a sector of 131 bytes, in a state of it, for an order. -/
def fmTaking (f : OrderFields) (st : ItemState) (g : Order → Order) : State :=
  let s := onA (working f (.reading 0 false .A 0) false) fun ch =>
    { ch with run := { ch.run with items := [{ Item.fresh 0 3 false with st := st }] } }
  { s with
    front := { s.front with tables := { tables with drives := BySide.allDrives recordFm } },
    engine := s.engine.updOrder 31 g }

theorem witness_GoodDataFieldsAreTaken :
    ∀ p ∈ [({ fields .read with policy := .stop }, ItemState.wanted),
      ({ fields .read with policy := .skip }, .wanted), (fields .read, .wanted), (fields .check, .wanted),
      (fields .mend, .wanted), (fields .mend, .written), ({ fields .format with verify := true }, .written),
      ({ fields .write with verify := true }, .written), ({ fields .retire with verify := true }, .written)],
    let s := fmTaking p.1 p.2 id
    s.front.ctl = .run ∧ (s.engine.chan .A).act = .reading 0 false .A 0 ∧
    (∃ o ∈ s.engine.orderOf? .A, o.kind = p.1.kind ∧ (o.geometry s.front).size + 3 = 131) ∧
    (∃ it ∈ (s.engine.chan .A).run.items.find? fun i => i.pos == 0, it.st = p.2) ∧
    (s.front.record ⟨.A, .p0⟩).mfm = false := by decide

theorem witness_GoodDataFieldsAreTaken_mirrored :
    let s := fmTaking { fields .read with pairCopy := true } .wanted fun o =>
      ({ o with mirrored := true }).setEntry .B 0 .copying
    (∃ o, s.engine.orderOf? .A = some o ∧ o.kind = .read ∧ o.mirrored = true ∧ o.entry .B 0 = .copying ∧
      o.fields.policy = .take) ∧
    retiredZeros.head? = some 0x36#8 ∧ zeroField.head? = some 0x35#8 ∧ (Item.fresh 0 3 false).mark = 0x35#8 :=
  ⟨⟨_, rfl, by decide⟩, rfl, rfl, rfl⟩

theorem witness_DataFieldReadIsJudged :
    let s := fmReading 2
    s.front.ctl = .run ∧ (s.engine.chan .A).act = .reading 0 false .A 0 ∧
    (∃ o, s.engine.orderOf? .A = some o ∧ o.kind = .read ∧ o.mirrored = false ∧
      (o.geometry s.front).size + 3 = 131) ∧
    (∃ it, ((s.engine.chan .A).run.items.find? fun i => i.pos == 0) = some it ∧ it.st = .wanted ∧
      it.tries + 1 ≤ s.front.tables.retry ∧ it.tries + 1 ≠ 2) ∧
    (∃ it, (((fmReading 3).engine.chan .A).run.items.find? fun i => i.pos == 0) = some it ∧
      (fmReading 3).front.tables.retry < it.tries + 1) ∧
    (s.engine.chan .A).stopping = false ∧ ([] : List Byte).head? ≠ some 0x35#8 ∧
    (let ch := { s.engine.chan .A with stopping := true }
     ch.stopping = true ∧ ch.touch = none) :=
  ⟨by decide, by decide, ⟨_, rfl, by decide⟩,
    ⟨_, rfl, by decide⟩, ⟨_, rfl, by decide⟩, by decide⟩

theorem witness_WrittenFieldsAndPassedDataGoOn :
    let w (f : OrderFields) (b : Option Side) : State := working f (.writing 0 b) true
    let p := onA (working (fields .mend) .seeking false) fun ch =>
      { ch with buffers := ⟨{ use := .holding 0 0x36, data := [] }, SectorBuffer.empty⟩ }
    let p := { p with engine := p.engine.updChan .B fun ch => { ch with order := some 31 } }
    (w (fields .write) (some .A)).front.ctl = .run ∧
    ((w (fields .write) (some .A)).engine.chan .A).act = .writing 0 (some .A) ∧
    (∃ o, (w (fields .write) (some .A)).engine.orderOf? .A = some o ∧ o.kind ≠ .mend ∧
      o.fields.verify = false ∧ o.mirrored = false) ∧
    (let s := mirrored .write .notBegun .notBegun
     let s := onA s fun ch => { ch with order := some 31, act := .writing 0 (some .A) }
     ∃ o, s.engine.orderOf? .A = some o ∧ o.kind ≠ .mend ∧ o.fields.verify = false ∧ o.mirrored = true) ∧
    (∃ o, (w { fields .retire with verify := true } none).engine.orderOf? .A = some o ∧ o.kind ≠ .mend ∧
      o.fields.verify = true) ∧
    (∃ o, p.engine.orderOf? .A = some o ∧ o.kind = .mend) ∧ (p.engine.chan .A).holds? = some .A ∧
    (p.engine.chan .A).use .A = .holding 0 0x36 ∧ (p.engine.chan .B).order = (p.engine.chan .A).order ∧
    (p.engine.chan .B).readBuffer? = some .A :=
  ⟨by decide, by decide, ⟨_, rfl, by decide⟩, ⟨_, rfl, by decide⟩,
    ⟨_, rfl, by decide⟩, ⟨_, rfl, by decide⟩, by decide⟩

theorem witness_SearchTimeoutFailsTheAttempt :
    let s (tries : Nat) : State := onA (working (fields .read) .seeking false) fun ch =>
      { ch with run := { ch.run with items := [{ Item.fresh 0 3 false with pulses := 2, tries := tries }] } }
    let found (tries : Nat) : Option Item := ((s tries).engine.chan .A).run.items.find? fun i =>
      i.sought false .read && i.sector == 3 && decide (2 ≤ i.pulses)
    let ch := (s 0).engine.chan .A
    (s 0).front.ctl = .run ∧ ch.act = .seeking ∧ ch.state = .trackPass ∧ ch.run.verify = false ∧
    (∃ o, (s 0).engine.orderOf? .A = some o ∧ o.kind = .read ∧ o.mirrored = false) ∧
    ch.stopping = false ∧ (found 2).map Item.tries = some 2 ∧ 2 + 1 ≤ (s 2).front.tables.retry ∧
    (found 1).map Item.tries = some 1 ∧ 2 ≤ (s 1).front.tables.retry ∧
    (found 3).map Item.tries = some 3 ∧ (s 3).front.tables.retry < 3 + 1 ∧
    (ch.run.items.find? fun i => i.sought false .read && i.sector == 4 && decide (2 ≤ i.pulses)) = none :=
  ⟨by decide, by decide, by decide, by decide, ⟨_, rfl, by decide⟩, by decide⟩

/-- The search of `sought` has seen its two pulses, after some failed attempts. -/
def timedOut (f : OrderFields) (st : ItemState) (write verify : Bool) (tries : Nat) : State :=
  onA (sought f st write verify .free) fun ch =>
    { ch with run := { ch.run with
      items := [{ Item.fresh 0 3 write with st := st, tries := tries, pulses := 2 }, Item.fresh 1 4 write] } }

theorem witness_SearchTimeoutFailsTheAttempt_general :
    let back (k : Kind) : OrderFields := { fields k with verify := true }
    let found (s : State) (tries : Nat) : Prop :=
      s.front.ctl = .run ∧ (s.engine.chan .A).act = .seeking ∧ (s.engine.chan .A).stopping = false ∧
      (s.engine.orderOf? .A).isSome ∧
      ((s.engine.chan .A).state = .trackPass ∨ (s.engine.chan .A).state = .verifyPass) ∧
      ((foundItem s).filter fun i => decide (2 ≤ i.pulses)).map Item.tries = some tries
    (∀ n ∈ [0, 1, 3], found (timedOut (fields .write) .wanted true false n) n ∧
      found (timedOut (back .write) .written true true n) n ∧ found (timedOut (fields .mend) .wanted false false n) n ∧
      found (timedOut (fields .mend) .written true true n) n) ∧
    found (timedOut (back .format) .written true true 0) 0 ∧
    (base.front.tables.retry = 3 ∧ 0 + 1 ≤ 3 ∧ 1 + 1 = 2 ∧ 3 < 3 + 1) ∧
    (let s := onA (mirrored .read .notBegun .notBegun) fun ch =>
       { ch with
         order := some 31, state := .trackPass, act := .seeking,
         run := { Run.none with items := [{ Item.fresh 0 3 false with pulses := 2, tries := 3 }] } }
     found s 3 ∧ (s.engine.orderOf? .A).map Order.mirrored = some true) := by decide

theorem witness_IndexPulsesAreCounted :
    let s (k : Kind) (a : Act) : State := working (fields k) a false
    let survey := onA base fun ch =>
      { ch with state := .surveyStep, selected := some .p0, act := .surveying .waitIndex 1 }
    (s .read .seeking).front.ctl = .run ∧ ((s .read .seeking).engine.chan .A).selected = some .p0 ∧
    ((s .read .seeking).engine.drive ⟨.A, .p0⟩).state = .ready ∧
    ((s .read .seeking).engine.drive ⟨.A, .p0⟩).timing = false ∧
    ((s .read (.confirming 0)).engine.chan .A).act = .confirming 0 ∧
    ((s .read (.confirming 1)).engine.chan .A).act = .confirming 1 ∧
    ((s .read .seeking).engine.chan .A).state = .trackPass ∧
    ((s .format .awaitIndex).engine.chan .A).act = .awaitIndex ∧
    ((s .format .awaitIndex).engine.orderOf? .A).map Order.pair = some .p0 ∧
    ((s .format .awaitIndex).engine.drive ⟨.A, .p0⟩).writeProtected = false ∧
    ((s .format (.formatting false)).engine.chan .A).act = .formatting false ∧
    1663 < 1664 ∧ 1664 ≤ 1664 ∧ (survey.engine.chan .A).state = .surveyStep ∧
    (survey.engine.chan .A).act ≠ .selecting := by decide

theorem witness_IndexPulsesAreCounted_survey :
    let s (stage : SurveyStage) (n : Nat) (st : DriveState) : State :=
      let s := onA base fun ch =>
        { ch with state := .surveyStep, selected := some .p0, act := .surveying stage n }
      { s with engine := s.engine.setDrive ⟨.A, .p0⟩ { readyOn 2 with state := st } }
    (∀ st ∈ [DriveState.unknown, .notReady, .offSpeed, .ready],
      ((s .waitIndex 2 st).engine.drive ⟨.A, .p0⟩).state = st ∧
      ((s .waitIndex 2 st).engine.drive ⟨.A, .p0⟩).timing = false) ∧
    (∀ n ∈ [2, 3], ((s .waitRevolution n .unknown).engine.chan .A).act = .surveying .waitRevolution n) ∧
    ((s .waitIndex 2 .unknown).engine.chan .A).selected = some .p0 := by decide

theorem witness_IndexPulsesAreCounted_period :
    let s := working (fields .read) .seeking false
    let k (st : DriveState) (outs ins : Nat) : Knowledge :=
      { readyOn 2 with state := st, timing := true, outCount := outs, inCount := ins }
    let ch := s.engine.chan .A
    ¬(1584 ≤ min 65535 1583 ∧ min 65535 1583 ≤ 1750) ∧ ¬(1584 ≤ min 65535 1751 ∧ min 65535 1751 ≤ 1750) ∧
    (1584 ≤ min 65535 1584 ∧ min 65535 1584 ≤ 1750) ∧
    (k .ready 0 0).state = .ready ∧ (k .ready 0 0).outCount = 0 ∧ 1 ≤ (k .ready 1 0).outCount ∧
    (k .offSpeed 0 0).state = .offSpeed ∧ (k .offSpeed 0 0).inCount = 0 ∧ 1 ≤ (k .offSpeed 0 1).inCount ∧
    ch.state = .trackPass ∧ ch.act ≠ .selecting ∧ s.engine.orderOf? .A ≠ none ∧
    (let ch := { ch with state := .partnerWait }
     ch.state = .partnerWait ∧ ch.stopping = false) := by decide

theorem witness_FormatTrackEnds :
    let s := working { fields .format with verify := true } (.formatting true) true
    s.front.ctl = .run ∧ (s.engine.chan .A).act = .formatting true ∧ (s.engine.chan .A).stopping = false ∧
    (∃ o, s.engine.orderOf? .A = some o ∧ o.fields.verify = true ∧
      o.sectorCount s.front ≤ (o.progress.get .A).length) ∧
    (∃ o, (working (fields .format) (.formatting true) true).engine.orderOf? .A = some o ∧
      o.fields.verify = false ∧ o.kind = .format ∧ 1 ≤ o.sectorCount s.front ∧
      o.sectorCount s.front ≤ (o.progress.get .A).length) ∧
    ((working (fields .read) .seeking false).engine.chan .A).act ≠ .formatting true :=
  ⟨by decide, by decide, by decide, ⟨_, rfl, by decide⟩,
    ⟨_, rfl, by decide⟩, by decide⟩

theorem witness_SamplesFollowTheLines :
    let s := working (fields .read) .seeking false
    let d : Drive := ⟨.A, .p0⟩
    let x := { s.front with
      tables := { tables with drives := BySide.allDrives { record with debounce := true } } }
    s.front.ctl = .run ∧ (s.engine.chan .A).selected = some d.pair ∧ (s.engine.drive d).held = some true ∧
    noLines.wprt = false ∧ noLines.ready ≠ true ∧ (x.record d).debounce = true ∧
    ({ s.engine.drive d with sampleRun := 1 }).sampleRun + 1 < 3 ∧ (s.engine.chan .A).act = .seeking ∧
    (s.engine.chan .B).selected ≠ some .p0 ∧ (s.engine.drive d).state = .ready ∧
    (State.reset.engine.drive d).state = .unknown ∧
    (after (onA base fun ch => { ch with selected := some .p0 }) (.readySample d noLines)).engine.drive d =
      { readyOn 2 with held := some false, state := .notReady, lastSample := some false } := by decide

theorem witness_SamplesFollowTheLines_levels :
    let s := working (fields .write) .seeking true
    let d : Drive := ⟨.A, .p0⟩
    let k (st : DriveState) : Engine := s.engine.setDrive d { readyOn 2 with state := st, writeProtected := true }
    (s.engine.chan .A).selected = some d.pair ∧ (s.engine.chan .A).state = .trackPass ∧
    (s.engine.chan .A).act ≠ .selecting ∧
    (∃ o, (k .ready).orderOf? .A = some o ∧ o.writesOn .A = true) ∧ ((k .ready).drive d).writeProtected = true ∧
    (s.engine.drive d).writeProtected = false ∧ ((k .unknown).drive d).state = .unknown ∧
    ((k .offSpeed).drive d).state = .offSpeed ∧ ((k .notReady).drive d).state = .notReady ∧
    (Knowledge.reset.held = none ∧ Knowledge.reset.lastSample = none) :=
  ⟨by decide, by decide, by decide, ⟨_, rfl, by decide⟩, by decide⟩

/-- What the sector-resolving statement asks of an order, on sector 0 of `mirrored`. -/
abbrev resolves (s : State) (kind : Kind) (a b : Entry) : Prop :=
  ∃ o ∈ s.engine.order? 31, o.kind = kind ∧ o.mirrored = true ∧ o.finish = none ∧
    o.resolved[0]? = some false ∧ 0 < o.reservation ∧ o.entry .A 0 = a ∧ o.entry .B 0 = b

theorem witness_MirroredSectorsAreResolved :
    (∀ p ∈ [(Entry.done, Entry.done), (.done, .failed .dataCheck), (.failed .dataCheck, .done),
        (.failed .notReady, .failed .dataCheck), (.done, .notBegun), (.written, .done)],
      ∀ kind ∈ [Kind.write, .check, .read], resolves (mirrored kind p.1 p.2) kind p.1 p.2) ∧
    (let e := (mirrored .check .done .done).engine
     let pl : Place := { cylinder := 2, surface := 0, sector := 3 }
     (∃ o, e.order? 31 = some o ∧ o.place base.front 0 = pl) ∧
     e.log.find? (fun l => l.pair == .p0 && l.place == pl) = none ∧
     let l : LogEntry := { pair := .p0, good := .B, place := pl, origin := 0, originKind := .write }
     ({ e with log := [l] }).log.find? (fun l => l.pair == PairId.p0 && l.place == pl) = some l) ∧
    (resolves (mirrored .format .done .done) .format .done .done ∧
      ∀ c, ((mirrored .format .done .done).engine.chan c).order ≠ some 31) ∧
    (let e := (mirrored .format .done .done).engine
     let e := e.setChan .A { e.chan .A with order := some 31, act := .awaitIndex }
     (e.chan .A).order = some 31 ∧ (e.chan .A).act ≠ .ending) :=
  ⟨by decide, ⟨⟨_, rfl, by decide⟩, by decide⟩,
    ⟨by decide, fun c => by cases c <;> decide⟩, by decide⟩

theorem witness_MirroredSectorsAreResolved_side :
    let e := (mirrored .check (.failed .dataCheck) .notBegun).engine
    let e := e.setChan .A { e.chan .A with order := some 31 }
    (e.chan .A).order = some 31 ∧ ∃ o, e.order? 31 = some o := ⟨rfl, _, rfl⟩

/-- R65, R72: a copy that a side had checked bad counts with the side when it fails as a whole: nothing is
logged when the other side then finds its copy good. -/
theorem test_failed_side_takes_its_failed_sectors :
    let e := (mirrored .check (.failed .dataCheck) .notBegun).engine
    let e := ((e.setChan .A { e.chan .A with order := some 31 }).setChan .B { e.chan .B with order := some 31 })
    let e := e.failSide base.front .A .notReady
    (e.order? 31).map (fun o => o.entry .A 0) = some (.failed .notReady) ∧
    (let t := (e.mark 31 .B 0 .done).resolve base.front 31 0
     t.log.length = 30 ∧ (t.order? 31).map (fun o => (o.logged, o.sectorsDone)) = some (0, 1)) := by decide

theorem witness_MediumChangeReachesOrdersAndPairs :
    let e := (paired twoHeld).engine
    let d : Drive := ⟨.A, .p0⟩
    let e' := e.setDrive d { e.drive d with generation := 1 }
    (e'.held.map Order.slot).Nodup ∧ (∀ o ∈ e'.held, o.withdrawMark = none) ∧
    (∃ o ∈ e'.held, o.finish = none ∧ o.fields.covers d = true ∧
      o.generation.get d.side ≠ some (e'.drive d).generation ∧ o.state ≠ .running) ∧
    (∃ o ∈ e'.held, o.finish = none ∧ o.fields.covers d = true ∧
      o.generation.get d.side ≠ some (e'.drive d).generation ∧ o.state = .running) ∧
    (e'.pairs.get d.pair).bound = true ∧ (e'.pairs.get d.pair).mode = .attached ∧
    (e'.pairs.get .p1).bound = false := by decide

theorem witness_HeaderRegistersAndInterruptLine_states :
    (base.engine.chan .A).state = .idle ∧ (base.engine.chan .A).state ≠ .positioning := by decide

theorem witness_EligibleOrdersPassTheTests :
    let s := choiceCase
    let p (k : Kind) : Order := order 12 { fields k with pairCopy := true } .queued
    (∃ o, s.engine.held = [] ++ o :: s.engine.held.tail) ∧ (s.engine.held.map Order.slot).Nodup ∧
    (p .mend).fields.kind = .mend ∧ (p .write).fields.kind ≠ .mend ∧ (p .write).fields.pairCopy = true ∧
    (∀ m, ((detaching m .B none []).pairs.get .p0).bound = true ∧ ((detaching m .B none []).pairs.get .p0).mode = m) ∧
    (p .write).fences base.front (p .mend) = true ∧ (p .read).fences base.front (p .mend) = false :=
  ⟨⟨_, rfl⟩, by decide, by decide, by decide, by decide, fun m => ⟨rfl, rfl⟩, by decide⟩

theorem witness_WinnerIsOldestOverdueOrBestScore_score :
    let s := choiceCase
    let o : Order := order 3 { fields .read with desk := 3, cylinder := 76 } .queued
    let p : Order := order 12 { fields .write with pairCopy := true } .queued
    s.engine.planOf o = (BySide.both false).set .A true ∧ s.engine.planOf p = BySide.both true ∧
    (s.front.tables.desks[o.fields.desk]?.map Desk.cls).getD 0 = 3 ∧ s.engine.target s.front o < 80 ∧
    ∀ d ∈ Drive.all, ∀ v, v ∈ (s.engine.drive d).cylinder → v < 80 := by
  refine ⟨by decide, by decide, by decide, by decide, ?_⟩
  simp [Drive.all, choiceCase, Engine.drive, BySide.drive, BySide.get, ByPair.get, readyOn]

theorem witness_WinnerIsOldestOverdueOrBestScore :
    (∃ o ∈ choiceCase.engine.held, choiceCase.engine.eligible choiceCase.front o .A = true) ∧
    (∀ o ∈ choiceCase.engine.held, o.age < choiceCase.front.tables.overdue) ∧
    ∃ o ∈ choiceCase.engine.held, choiceCase.engine.eligible
      { choiceCase.front with tables := { choiceCase.front.tables with overdue := 140 } } o .A = true ∧
      140 ≤ o.age := by decide

theorem witness_WrittenFieldsReadBack :
    (List.replicate 128 (0#8)).length = recordFm.size ∧
    trackNeed record.mfm record.sectors record.size ≤ 10400 := by decide +kernel

theorem witness_HeaderRegistersAndInterruptLine : bounded.front.actionQ.length = 8 := by decide

end Sys2Proof.Tests
end

namespace Sys2Proof.Machine

/-! ### What the operations of the engine leave of the drives' records

One lemma an operation, as for `Engine.Keeps`: the held counts stay, and an output latch is either left as it is,
with what it follows, or brought up to date (R6, R147 to R149). -/

/-- A drive's record goes on from `k` to `k'`: the held count stays, and the output latch and what it follows stay
too, or the latch shows what it follows (R147 to R149). -/
def Knowledge.Follows (x : Front) (d : Drive) (k k' : Knowledge) : Prop :=
  k'.heldCount = k.heldCount ∧
  ((k'.latch = k.latch ∧ k'.loaded = k.loaded ∧ k'.mountHold = k.mountHold) ∨ k'.latch = x.latchOf d k')

theorem Knowledge.Follows.trans {x : Front} {d : Drive} {k k' k'' : Knowledge} (h : k.Follows x d k')
    (h' : k'.Follows x d k'') : k.Follows x d k'' := by
  obtain ⟨count, latch⟩ := h
  obtain ⟨count', latch'⟩ := h'
  refine ⟨count'.trans count, ?_⟩
  rcases latch' with ⟨same, loaded, hold⟩ | shown
  · rcases latch with ⟨same', loaded', hold'⟩ | shown'
    · exact .inl ⟨same.trans same', loaded.trans loaded', hold.trans hold'⟩
    · refine .inr ?_
      rw [same, shown']
      simp [Front.latchOf, count', loaded, hold, same]
  · exact .inr shown

/-- A latch brought up to date shows what it follows. -/
theorem Knowledge.Follows.relatch {x : Front} {d : Drive} {k k' : Knowledge} (h : k'.heldCount = k.heldCount) :
    k.Follows x d (x.relatch d k') := by
  refine ⟨h, .inr ?_⟩
  simp only [Front.relatch, Front.latchOf]
  split
  · split <;> rfl
  all_goals rfl

/-- The engine goes on from `a` to `e` with each drive's record as `Knowledge.Follows` has it. -/
def Engine.Follows (x : Front) (a e : Engine) : Prop := ∀ d, (a.drive d).Follows x d (e.drive d)

theorem Engine.Follows.refl (x : Front) (e : Engine) : e.Follows x e := fun _ => ⟨rfl, .inl ⟨rfl, rfl, rfl⟩⟩

theorem Engine.Follows.trans {x : Front} {a b c : Engine} (h : a.Follows x b) (k : b.Follows x c) :
    a.Follows x c := fun d => (h d).trans (k d)

theorem Engine.Follows.foldl {x : Front} {a : Engine} {ι : Type} (f : Engine → ι → Engine) (l : List ι)
    (hf : ∀ e i, a.Follows x e → a.Follows x (f e i)) :
    ∀ {e : Engine}, a.Follows x e → a.Follows x (l.foldl f e) := by
  induction l with
  | nil => exact fun h => h
  | cons i l ih => exact fun h => ih (hf _ i h)

section Follows

variable {x : Front} {a e : Engine}

/-- A change of parts other than the drives' records. -/
theorem Engine.Follows.same {e' : Engine} (h : a.Follows x e) (drives : e'.drives = e.drives) :
    a.Follows x e' := by
  intro d
  have : e'.drive d = e.drive d := by simp only [Engine.drive, drives]
  exact this ▸ h d

theorem Engine.drive_setDrive_of_ne (e : Engine) {d d' : Drive} (k : Knowledge) (h : d' ≠ d) :
    (e.setDrive d k).drive d' = e.drive d' := BySide.drive_setDrive_other _ _ h

theorem Engine.Follows.setDrive (h : a.Follows x e) (d : Drive) {k : Knowledge}
    (hk : (e.drive d).Follows x d k) : a.Follows x (e.setDrive d k) := by
  intro d'
  by_cases hd : d' = d
  · subst hd
    rw [Engine.drive_setDrive]
    exact (h d').trans hk
  · rw [e.drive_setDrive_of_ne k hd]
    exact h d'

/-- A change of a record that touches neither its held count nor its latch nor what the latch follows. -/
theorem Engine.Follows.setDriveSame (h : a.Follows x e) (d : Drive) {k : Knowledge}
    (count : k.heldCount = (e.drive d).heldCount) (latch : k.latch = (e.drive d).latch)
    (loaded : k.loaded = (e.drive d).loaded) (hold : k.mountHold = (e.drive d).mountHold) :
    a.Follows x (e.setDrive d k) := h.setDrive d ⟨count, .inl ⟨latch, loaded, hold⟩⟩

theorem Engine.Follows.changeDrive (h : a.Follows x e) (d : Drive) (f : Knowledge → Knowledge)
    (hf : (f (e.drive d)).heldCount = (e.drive d).heldCount) : a.Follows x (e.changeDrive x d f) :=
  h.setDrive d (.relatch hf)

theorem Engine.Follows.setChan (h : a.Follows x e) (c : Side) (v : Channel) : a.Follows x (e.setChan c v) :=
  h.same rfl

theorem Engine.Follows.updChan (h : a.Follows x e) (c : Side) (f : Channel → Channel) :
    a.Follows x (e.updChan c f) := h.same rfl

theorem Engine.Follows.setTimer (h : a.Follows x e) (d : Drive) (t : Timer) : a.Follows x (e.setTimer d t) :=
  h.same rfl

theorem Engine.Follows.setAttention (h : a.Follows x e) (n : Nat) : a.Follows x (e.setAttention n) := h.same rfl

theorem Engine.Follows.updOrder (h : a.Follows x e) (slot : Nat) (f : Order → Order) :
    a.Follows x (e.updOrder slot f) := h.same rfl

theorem Engine.Follows.toTail (h : a.Follows x e) (slot : Nat) : a.Follows x (e.toTail slot) := h.same rfl

theorem Engine.Follows.issue (h : a.Follows x e) (k : RequestKind) (ws : List Access) (n : Option Notice) :
    a.Follows x (e.issue k ws n) := h.same rfl

theorem Engine.Follows.headerWrite (h : a.Follows x e) (ws : List (Nat × Word)) (n : Option Notice) :
    a.Follows x (e.headerWrite x ws n) := h.same rfl

theorem Engine.Follows.writeStatus (h : a.Follows x e) (d : Drive) (notice : Option Notice) :
    a.Follows x (e.writeStatus x d notice) := h.same rfl

theorem Engine.Follows.updDrive (h : a.Follows x e) (d : Drive) (f : Knowledge → Knowledge)
    (hf : (f (e.drive d)).heldCount = (e.drive d).heldCount) : a.Follows x (e.updDrive x d f) := by
  dsimp only [Engine.updDrive]
  split
  · exact (h.setDrive d (.relatch hf)).writeStatus _ _
  · exact h.setDrive d (.relatch hf)


theorem Engine.Follows.enter (h : a.Follows x e) (c : Side) (st : ChannelState) :
    a.Follows x (e.enter x c st) := by
  unfold Engine.enter
  split
  · exact h
  · exact (h.updChan _ _).headerWrite _ _

theorem Engine.Follows.writeCtl (h : a.Follows x e) (c : Ctl) : a.Follows x (e.writeCtl x c) := h.same rfl

theorem Engine.Follows.writeClock (h : a.Follows x e) : a.Follows x (e.writeClock x) := h.same rfl

theorem Engine.Follows.writeSurvey (h : a.Follows x e) : a.Follows x (e.writeSurvey x) := h.same rfl

theorem Engine.Follows.writeTotal (h : a.Follows x e) : a.Follows x (e.writeTotal x) := h.same rfl

theorem Engine.Follows.writeDesk (h : a.Follows x e) (desk : Nat) :
    a.Follows x (e.writeDesk x desk) := h.same rfl

theorem Engine.Follows.writeReserved (h : a.Follows x e) : a.Follows x (e.writeReserved x) := h.same rfl

theorem Engine.Follows.writeCounts (h : a.Follows x e) : a.Follows x (e.writeCounts x) := h.same rfl

theorem Engine.Follows.writeLogLength (h : a.Follows x e) : a.Follows x (e.writeLogLength x) := h.same rfl

theorem Engine.Follows.writePair (h : a.Follows x e) (p : PairId) : a.Follows x (e.writePair x p) := h.same rfl

theorem Engine.Follows.writeImageWords (h : a.Follows x e) (pos : Nat) (ws : List Word) :
    a.Follows x (e.writeImageWords x pos ws) := h.same rfl

theorem Engine.Follows.writeImageFrom (h : a.Follows x e) (pos : Nat) :
    a.Follows x (e.writeImageFrom x pos) := by
  dsimp only [Engine.writeImageFrom]
  repeat' first
    | with_reducible exact h | split | with_reducible apply Follows.writeImageWords
    | (apply Follows.foldl; intro e i h)

theorem Engine.Follows.writeVacated (h : a.Follows x e) (count : Nat) :
    a.Follows x (e.writeVacated x count) := by
  dsimp only [Engine.writeVacated]
  repeat' first
    | with_reducible exact h | split | with_reducible apply Follows.writeImageWords
    | (apply Follows.foldl; intro e i h)

theorem Engine.Follows.writePhase (h : a.Follows x e) (slot phase : Nat) (notice : Option Notice) :
    a.Follows x (e.writePhase x slot phase notice) := h.same rfl

theorem Engine.Follows.writeResults (h : a.Follows x e) (slot : Nat) (r : Results) :
    a.Follows x (e.writeResults x slot r) := h.same rfl

theorem Engine.Follows.recordAction (h : a.Follows x e) (w : Word) (o : ActionOutcome) (n : Option Notice) :
    a.Follows x (e.recordAction x w o n) := h.same rfl

theorem Engine.Follows.writeLastAction (h : a.Follows x e) (w : Word) (o : ActionOutcome) :
    a.Follows x (e.writeLastAction x w o) := h.same rfl

theorem Engine.Follows.writeBack (h : a.Follows x e) (pos vacated : Nat) :
    a.Follows x (e.writeBack x pos vacated) := by
  dsimp only [Engine.writeBack]
  repeat' first
    | with_reducible exact h | split | with_reducible apply Follows.writeImageFrom
    | with_reducible apply Follows.writeVacated | with_reducible apply Follows.writeLogLength
    | with_reducible apply Follows.writeCounts

theorem Engine.Follows.logSet (h : a.Follows x e) (l : LogEntry) : a.Follows x (e.logSet x l) := by
  dsimp only [Engine.logSet]
  split
  all_goals
    refine Follows.writeBack ?_ _ _
    exact h.same rfl

theorem Engine.Follows.logRemove (h : a.Follows x e) (p : LogEntry → Bool) : a.Follows x (e.logRemove x p) := by
  dsimp only [Engine.logRemove]
  split
  · exact h
  · refine Follows.writeBack ?_ _ _
    exact h.same rfl

theorem Engine.Follows.pairChange (h : a.Follows x e) (d : Drive) : a.Follows x (e.pairChange x d) := by
  dsimp only [Engine.pairChange]
  split
  · refine Follows.logRemove ?_ _
    exact h.same rfl
  · exact h

theorem Engine.Follows.pairDetach (h : a.Follows x e) (d : Drive) : a.Follows x (e.pairDetach x d) := by
  refine Follows.logRemove ?_ _
  exact h.same rfl

theorem Engine.Follows.pairAttach (h : a.Follows x e) (p : PairId) : a.Follows x (e.pairAttach x p) := h.same rfl

theorem Engine.Follows.setBack (h : a.Follows x e) (p : PairId) (track : Nat) :
    a.Follows x (e.setBack p track) := by
  dsimp only [Engine.setBack]
  split
  · exact h.same rfl
  · exact h

theorem Engine.Follows.reserve (h : a.Follows x e) (slot n : Nat) : a.Follows x (e.reserve x slot n) := by
  dsimp only [Engine.reserve]
  repeat' first
    | with_reducible exact h | split | with_reducible apply Follows.updOrder
    | with_reducible apply Follows.writeReserved | exact h.same rfl

theorem Engine.Follows.unreserve (h : a.Follows x e) (slot : Nat) : a.Follows x (e.unreserve x slot) := by
  dsimp only [Engine.unreserve]
  repeat' first
    | with_reducible exact h | split | with_reducible apply Follows.updOrder
    | with_reducible apply Follows.writeReserved | exact h.same rfl

theorem Engine.Follows.spend (h : a.Follows x e) (slot : Nat) : a.Follows x (e.spend slot) := by
  dsimp only [Engine.spend]
  repeat' first
    | with_reducible exact h | split | with_reducible apply Follows.updOrder | exact h.same rfl

theorem Engine.Follows.logOutcome (h : a.Follows x e) (o : Order) (pl : Place) (good : Side) :
    a.Follows x (e.logOutcome x o pl good) := by
  dsimp only [Engine.logOutcome]
  split
  · exact (h.logSet _).updOrder _ _
  · exact h.same rfl

theorem Engine.Follows.markResolved (h : a.Follows x e) (slot i : Nat) (isDone : Bool) :
    a.Follows x (e.markResolved slot i isDone) := h.same rfl

theorem Engine.Follows.resolveWrite (h : a.Follows x e) (o : Order) (i : Nat) (final : Bool) :
    a.Follows x (e.resolveWrite x o i final).1 := by
  dsimp only [Engine.resolveWrite]
  repeat' first
    | with_reducible exact h | split | with_reducible apply Follows.settled
    | with_reducible apply Follows.spend | with_reducible apply Follows.markResolved
    | with_reducible apply Follows.logRemove | with_reducible apply Follows.writeReserved
    | with_reducible apply Follows.logOutcome

theorem Engine.Follows.resolveCheck (h : a.Follows x e) (o : Order) (i : Nat) (final : Bool) :
    a.Follows x (e.resolveCheck x o i final).1 := by
  dsimp only [Engine.resolveCheck]
  repeat' first
    | with_reducible exact h | split | with_reducible apply Follows.settled
    | with_reducible apply Follows.spend | with_reducible apply Follows.markResolved
    | with_reducible apply Follows.writeReserved | with_reducible apply Follows.logOutcome

theorem Engine.Follows.resolveOnce (h : a.Follows x e) (slot i : Nat) (final : Bool) :
    a.Follows x (e.resolveOnce x slot i final).1 := by
  dsimp only [Engine.resolveOnce]
  repeat' first
    | with_reducible exact h | split | with_reducible apply Follows.resolveWrite
    | with_reducible apply Follows.resolveCheck

theorem Engine.Follows.resolveRest (h : a.Follows x e) (slot : Nat) : a.Follows x (e.resolveRest x slot) := by
  dsimp only [Engine.resolveRest]
  repeat' first
    | with_reducible exact h | split | with_reducible apply Follows.resolveOnce
    | (apply Follows.foldl; intro e i h)

theorem Engine.Follows.decideFinish (h : a.Follows x e) (slot : Nat) (code : FinishCode) (late : Bool) :
    a.Follows x (e.decideFinish x slot code late) := by
  dsimp only [Engine.decideFinish]
  repeat' first
    | with_reducible exact h | split | with_reducible apply Follows.unreserve
    | with_reducible apply Follows.updOrder | with_reducible apply Follows.writeResults
    | with_reducible apply Follows.writePhase

theorem Engine.Follows.backToStanding (h : a.Follows x e) (slot : Nat) (code : FinishCode) :
    a.Follows x (e.backToStanding x slot code) := by
  dsimp only [Engine.backToStanding]
  repeat' first
    | with_reducible exact h | split | with_reducible apply Follows.unreserve
    | with_reducible apply Follows.updOrder | with_reducible apply Follows.writeResults
    | with_reducible apply Follows.writePhase

theorem Engine.Follows.requeueMend (h : a.Follows x e) (slot : Nat) :
    a.Follows x (e.requeueMend x slot) := h.same rfl

theorem Engine.Follows.endTurn (h : a.Follows x e) (o : Order) : a.Follows x (e.endTurn x o) := by
  dsimp only [Engine.endTurn]
  repeat' first
    | with_reducible exact h | split | with_reducible apply Follows.requeueMend
    | with_reducible apply Follows.decideFinish | with_reducible apply Follows.pairAttach
    | with_reducible apply Follows.updOrder

theorem Engine.Follows.endRun (h : a.Follows x e) (slot : Nat) : a.Follows x (e.endRun x slot) := by
  dsimp only [Engine.endRun]
  repeat' first
    | with_reducible exact h | split | with_reducible apply Follows.resolveRest
    | with_reducible apply Follows.updOrder | with_reducible apply Follows.endTurn
    | with_reducible apply Follows.backToStanding | with_reducible apply Follows.decideFinish

theorem Engine.Follows.deselect (h : a.Follows x e) (c : Side) (survey : Bool) (notice : Option Notice) :
    a.Follows x (e.deselect x c survey notice) := by
  dsimp only [Engine.deselect]
  repeat' first
    | with_reducible exact h | split | with_reducible apply Follows.setChan
    | with_reducible apply Follows.setTimer | with_reducible apply Follows.setDriveSame
    | with_reducible apply Follows.writeStatus | exact rfl

theorem Engine.Follows.toIdle (h : a.Follows x e) (c : Side) : a.Follows x (e.toIdle x c) := by
  dsimp only [Engine.toIdle]
  repeat' first
    | with_reducible exact h | split | with_reducible apply Follows.updChan
    | with_reducible apply Follows.enter

theorem Engine.Follows.release (h : a.Follows x e) (c : Side) : a.Follows x (e.release x c) := by
  dsimp only [Engine.release]
  repeat' first
    | with_reducible exact h | split | with_reducible apply Follows.deselect
    | with_reducible apply Follows.toIdle | with_reducible apply Follows.endRun

theorem Engine.Follows.rest (h : a.Follows x e) (c : Side) : a.Follows x (e.rest c) := h.same rfl

theorem Engine.Follows.tryClean (h : a.Follows x e) (c : Side) : a.Follows x (e.tryClean x c) := by
  dsimp only [Engine.tryClean]
  repeat' first
    | with_reducible exact h | split | with_reducible apply Follows.rest
    | with_reducible apply Follows.release

theorem Engine.Follows.stopChannel (h : a.Follows x e) (c : Side) (slot : Nat) :
    a.Follows x (e.stopChannel x c slot) := by
  dsimp only [Engine.stopChannel]
  repeat' first
    | with_reducible exact h | split | with_reducible apply Follows.updChan
    | with_reducible apply Follows.tryClean

theorem Engine.Follows.stopOrder (h : a.Follows x e) (slot : Nat) : a.Follows x (e.stopOrder x slot) := by
  dsimp only [Engine.stopOrder]
  repeat' first
    | with_reducible exact h | split | with_reducible apply Follows.stopChannel

theorem Engine.Follows.freeWaiter (h : a.Follows x e) (c : Side) (slot : Nat) :
    a.Follows x (e.freeWaiter x c slot) := by
  dsimp only [Engine.freeWaiter]
  repeat' first
    | with_reducible exact h | split | with_reducible apply Follows.updChan
    | with_reducible apply Follows.tryClean

theorem Engine.Follows.finishWaiting (h : a.Follows x e) (slot : Nat) (code : FinishCode) (late : Bool) :
    a.Follows x (e.finishWaiting x slot code late) := by
  dsimp only [Engine.finishWaiting]
  repeat' first
    | with_reducible exact h | split | with_reducible apply Follows.decideFinish
    | with_reducible apply Follows.freeWaiter

theorem Engine.Follows.setPending (h : a.Follows x e) (slot : Nat) (code : FinishCode) (pl : Place) :
    a.Follows x (e.setPending x slot code pl) := by
  dsimp only [Engine.setPending]
  repeat' first
    | with_reducible exact h | split | with_reducible apply Follows.updOrder
    | with_reducible apply Follows.stopOrder

theorem Engine.Follows.resolve (h : a.Follows x e) (slot i : Nat) : a.Follows x (e.resolve x slot i) := by
  have k := h.resolveOnce slot i false
  dsimp only [Engine.resolve]
  split
  · exact h
  · split <;> rename_i heq <;> rw [heq] at k
    · exact k
    · exact k.setPending _ _ _

theorem Engine.Follows.resolveAll (h : a.Follows x e) (slot : Nat) : a.Follows x (e.resolveAll x slot) := by
  dsimp only [Engine.resolveAll]
  repeat' first
    | with_reducible exact h | split | with_reducible apply Follows.resolve
    | (apply Follows.foldl; intro e i h)

theorem Engine.Follows.failSide (h : a.Follows x e) (c : Side) (code : FinishCode) :
    a.Follows x (e.failSide x c code) := by
  dsimp only [Engine.failSide]
  repeat' first
    | with_reducible exact h | split | with_reducible apply Follows.updChan
    | with_reducible apply Follows.updOrder | with_reducible apply Follows.setPending
    | with_reducible apply Follows.resolveAll | with_reducible apply Follows.release

theorem Engine.Follows.headUnloaded (h : a.Follows x e) (d : Drive) : a.Follows x (e.headUnloaded x d) := by
  dsimp only [Engine.headUnloaded]
  repeat' first
    | with_reducible exact h | split | with_reducible apply Follows.updDrive | exact rfl

theorem Engine.Follows.setSurvey (h : a.Follows x e) (v : Survey) : a.Follows x (e.setSurvey x v) := by
  dsimp only [Engine.setSurvey]
  repeat' first
    | with_reducible exact h | split | with_reducible apply Follows.writeSurvey | exact h.same rfl

theorem Engine.Follows.endSurveyStep (h : a.Follows x e) (c : Side) : a.Follows x (e.endSurveyStep x c) := by
  dsimp only [Engine.endSurveyStep]
  repeat' first
    | with_reducible exact h | split | with_reducible apply Follows.setDriveSame
    | with_reducible apply Follows.deselect | with_reducible apply Follows.toIdle
    | with_reducible apply Follows.setSurvey | exact rfl

theorem Engine.Follows.holdFailure (h : a.Follows x e) (c : Side) (code : FinishCode) :
    a.Follows x (e.holdFailure x c code) := by
  dsimp only [Engine.holdFailure]
  repeat' first
    | with_reducible exact h | split | with_reducible apply Follows.deselect
    | with_reducible apply Follows.updChan

theorem Engine.Follows.leaveReady (h : a.Follows x e) (d : Drive) (code : FinishCode) :
    a.Follows x (e.leaveReady x d code) := by
  dsimp only [Engine.leaveReady]
  repeat' first
    | with_reducible exact h | split | with_reducible apply Follows.endSurveyStep
    | with_reducible apply Follows.tryClean | with_reducible apply Follows.holdFailure
    | with_reducible apply Follows.failSide

theorem Engine.Follows.meetChange (h : a.Follows x e) (d : Drive) (slot : Nat) :
    a.Follows x (e.meetChange x d slot) := by
  dsimp only [Engine.meetChange]
  repeat' first
    | with_reducible exact h | split | with_reducible apply Follows.finishWaiting
    | with_reducible apply Follows.updOrder | with_reducible apply Follows.stopOrder

theorem Engine.Follows.rosterChange (h : a.Follows x e) (d : Drive) : a.Follows x (e.rosterChange x d) := by
  dsimp only [Engine.rosterChange]
  repeat' first
    | with_reducible exact h | split | with_reducible apply Follows.meetChange
    | (apply Follows.foldl; intro e i h)

theorem Engine.Follows.mediumChange (h : a.Follows x e) (d : Drive) : a.Follows x (e.mediumChange x d) := by
  dsimp only [Engine.mediumChange]
  repeat' first
    | with_reducible exact h | split | with_reducible apply Follows.setDriveSame
    | with_reducible apply Follows.rosterChange | with_reducible apply Follows.pairChange
    | with_reducible apply Follows.writeStatus | exact rfl

theorem Engine.Follows.setState (h : a.Follows x e) (d : Drive) (st : DriveState) (tell : Bool) :
    a.Follows x (e.setState x d st tell) := by
  dsimp only [Engine.setState]
  repeat' first
    | with_reducible exact h | split | with_reducible apply Follows.setDriveSame
    | with_reducible apply Follows.writeStatus | exact rfl

theorem Engine.Follows.takeLevel (h : a.Follows x e) (d : Drive) (level : Bool) :
    a.Follows x (e.takeLevel x d level) := by
  dsimp only [Engine.takeLevel]
  repeat' first
    | with_reducible exact h | split | with_reducible apply Follows.setDriveSame
    | with_reducible apply Follows.setState | with_reducible apply Follows.mediumChange
    | with_reducible apply Follows.leaveReady | exact rfl

theorem Engine.Follows.sampleReady (h : a.Follows x e) (d : Drive) (level : Bool) :
    a.Follows x (e.sampleReady x d level) := by
  dsimp only [Engine.sampleReady]
  repeat' first
    | with_reducible exact h | split | with_reducible apply Follows.setDriveSame
    | with_reducible apply Follows.takeLevel | exact rfl

theorem Engine.Follows.sampleFlags (h : a.Follows x e) (d : Drive) (l : Lines) :
    a.Follows x (e.sampleFlags x d l) := by
  dsimp only [Engine.sampleFlags]
  repeat' first
    | with_reducible exact h | split | with_reducible apply Follows.updDrive | exact rfl

theorem Engine.Follows.sampleChange (h : a.Follows x e) (d : Drive) (l : Lines) :
    a.Follows x (e.sampleChange x d l) := by
  dsimp only [Engine.sampleChange]
  repeat' first
    | with_reducible exact h | split | with_reducible apply Follows.changeDrive
    | with_reducible apply Follows.mediumChange | exact rfl

theorem Engine.Follows.selectionSample (h : a.Follows x e) (d : Drive) :
    a.Follows x (e.selectionSample x d) := by
  dsimp only [Engine.selectionSample]
  repeat' first
    | with_reducible exact h | split | with_reducible apply Follows.sampleChange
    | with_reducible apply Follows.sampleReady | with_reducible apply Follows.sampleFlags

theorem Engine.Follows.select (h : a.Follows x e) (c : Side) (p : PairId) (survey : Bool) :
    a.Follows x (e.select x c p survey) := by
  dsimp only [Engine.select]
  repeat' first
    | with_reducible exact h | split | with_reducible apply Follows.updChan
    | with_reducible apply Follows.setTimer | with_reducible apply Follows.setDriveSame
    | with_reducible apply Follows.selectionSample | exact rfl

theorem Engine.Follows.speedFault (h : a.Follows x e) (d : Drive) : a.Follows x (e.speedFault x d) := by
  dsimp only [Engine.speedFault]
  repeat' first
    | with_reducible exact h | split | with_reducible apply Follows.setState
    | with_reducible apply Follows.leaveReady

theorem Engine.Follows.judgePeriod (h : a.Follows x e) (d : Drive) (n : Nat) :
    a.Follows x (e.judgePeriod x d n) := by
  dsimp only [Engine.judgePeriod]
  repeat' first
    | with_reducible exact h | split | with_reducible apply Follows.setDriveSame
    | with_reducible apply Follows.speedFault | with_reducible apply Follows.setState | exact rfl

theorem Engine.Follows.countPulse (h : a.Follows x e) (d : Drive) (elapsed : Nat) :
    a.Follows x (e.countPulse x d elapsed) := by
  dsimp only [Engine.countPulse]
  repeat' first
    | with_reducible exact h | split | with_reducible apply Follows.setDriveSame
    | with_reducible apply Follows.judgePeriod | exact rfl

theorem Engine.Follows.setAct (h : a.Follows x e) (c : Side) (v : Act) :
    a.Follows x (e.setAct c v) := h.same rfl

theorem Engine.Follows.updPositioning (h : a.Follows x e) (c : Side) (f : Positioning → Positioning) :
    a.Follows x (e.updPositioning c f) := h.same rfl

theorem Engine.Follows.updRun (h : a.Follows x e) (c : Side) (f : Run → Run) :
    a.Follows x (e.updRun c f) := h.same rfl

theorem Engine.Follows.failPositioning (h : a.Follows x e) (c : Side) (code : FinishCode) :
    a.Follows x (e.failPositioning x c code) := by
  dsimp only [Engine.failPositioning]
  repeat' first
    | with_reducible exact h | split | with_reducible apply Follows.holdFailure
    | with_reducible apply Follows.failSide

theorem Engine.Follows.beginConfirm (h : a.Follows x e) (c : Side) :
    a.Follows x (e.beginConfirm c) := h.same rfl

theorem Engine.Follows.settled (h : a.Follows x e) (c : Side) : a.Follows x (e.settled x c) := by
  dsimp only [Engine.settled]
  repeat' first
    | with_reducible exact h | split | with_reducible apply Follows.beginConfirm
    | with_reducible apply Follows.updChan | with_reducible apply Follows.setAct
    | with_reducible apply Follows.release

theorem Engine.Follows.arrived (h : a.Follows x e) (c : Side) : a.Follows x (e.arrived x c) := by
  dsimp only [Engine.arrived]
  repeat' first
    | with_reducible exact h | split | with_reducible apply Follows.setAct
    | with_reducible apply Follows.settled

theorem Engine.Follows.beginSeek (h : a.Follows x e) (c : Side) : a.Follows x (e.beginSeek x c) := by
  dsimp only [Engine.beginSeek]
  repeat' first
    | with_reducible exact h | split | with_reducible apply Follows.arrived
    | with_reducible apply Follows.updChan

theorem Engine.Follows.sampleTrack0 (h : a.Follows x e) (d : Drive) (level : Bool) :
    a.Follows x (e.sampleTrack0 x d level) := by
  dsimp only [Engine.sampleTrack0]
  repeat' first
    | with_reducible exact h | split | with_reducible apply Follows.changeDrive | exact rfl

theorem Engine.Follows.atTrack0 (h : a.Follows x e) (d : Drive) : a.Follows x (e.atTrack0 x d) := by
  dsimp only [Engine.atTrack0]
  repeat' first
    | with_reducible exact h | split | with_reducible apply Follows.updDrive | exact rfl

theorem Engine.Follows.beginRecalibrate (h : a.Follows x e) (c : Side) :
    a.Follows x (e.beginRecalibrate x c) := by
  dsimp only [Engine.beginRecalibrate]
  repeat' first
    | with_reducible exact h | split | with_reducible apply Follows.updDrive
    | with_reducible apply Follows.updChan | with_reducible apply Follows.sampleTrack0
    | with_reducible apply Follows.atTrack0 | with_reducible apply Follows.beginSeek | exact rfl

theorem Engine.Follows.startPositioning (h : a.Follows x e) (c : Side) (why : PosWhy) (target surface : Nat)
    (forced : Bool) :
    a.Follows x (e.startPositioning x c why target surface forced) := by
  dsimp only [Engine.startPositioning]
  repeat' first
    | with_reducible exact h | split | with_reducible apply Follows.updChan
    | with_reducible apply Follows.beginRecalibrate | with_reducible apply Follows.beginSeek

theorem Engine.Follows.recalibrateStep (h : a.Follows x e) (c : Side) (d : Drive) (level : Bool) :
    a.Follows x (e.recalibrateStep x c d level) := by
  dsimp only [Engine.recalibrateStep]
  repeat' first
    | with_reducible exact h | split | with_reducible apply Follows.sampleTrack0
    | with_reducible apply Follows.atTrack0 | with_reducible apply Follows.setAct
    | with_reducible apply Follows.tryClean | with_reducible apply Follows.beginSeek
    | with_reducible apply Follows.failPositioning | with_reducible apply Follows.updPositioning

theorem Engine.Follows.seekStep (h : a.Follows x e) (c : Side) (d : Drive) :
    a.Follows x (e.seekStep x c d) := by
  dsimp only [Engine.seekStep]
  repeat' first
    | with_reducible exact h | split | with_reducible apply Follows.changeDrive
    | with_reducible apply Follows.setAct | with_reducible apply Follows.tryClean
    | with_reducible apply Follows.beginSeek | exact rfl

theorem Engine.Follows.stepEnd (h : a.Follows x e) (c : Side) (trk0 : Bool) :
    a.Follows x (e.stepEnd x c trk0) := by
  dsimp only [Engine.stepEnd]
  repeat' first
    | with_reducible exact h | split | with_reducible apply Follows.recalibrateStep
    | with_reducible apply Follows.seekStep

theorem Engine.Follows.settleEnd (h : a.Follows x e) (c : Side) : a.Follows x (e.settleEnd x c) := by
  dsimp only [Engine.settleEnd]
  repeat' first
    | with_reducible exact h | split | with_reducible apply Follows.settled

theorem Engine.Follows.loadEnd (h : a.Follows x e) (c : Side) : a.Follows x (e.loadEnd x c) := by
  dsimp only [Engine.loadEnd]
  repeat' first
    | with_reducible exact h | split | with_reducible apply Follows.updDrive
    | with_reducible apply Follows.beginConfirm | exact rfl

theorem Engine.Follows.confirmDiffers (h : a.Follows x e) (c : Side) : a.Follows x (e.confirmDiffers x c) := by
  dsimp only [Engine.confirmDiffers]
  repeat' first
    | with_reducible exact h | split | with_reducible apply Follows.setAct
    | with_reducible apply Follows.updDrive | with_reducible apply Follows.failPositioning
    | with_reducible apply Follows.updPositioning | with_reducible apply Follows.beginRecalibrate | exact rfl

theorem Engine.Follows.updItem (h : a.Follows x e) (c : Side) (pos : Nat) (f : Item → Item) :
    a.Follows x (e.updItem c pos f) := h.same rfl

theorem Engine.Follows.searchAnew (h : a.Follows x e) (c : Side) : a.Follows x (e.searchAnew c) := h.same rfl

theorem Engine.Follows.fillBuffer (h : a.Follows x e) (c : Side) (b : Side) :
    a.Follows x (e.fillBuffer x c b) := by
  dsimp only [Engine.fillBuffer]
  repeat' first
    | with_reducible exact h | split | with_reducible apply Follows.setChan

theorem Engine.Follows.fillBuffers (h : a.Follows x e) (c : Side) : a.Follows x (e.fillBuffers x c) := by
  dsimp only [Engine.fillBuffers]
  repeat' first
    | with_reducible exact h | split | with_reducible apply Follows.fillBuffer

theorem Engine.Follows.countRetry (h : a.Follows x e) (slot : Nat) :
    a.Follows x (e.countRetry slot) := h.same rfl

theorem Engine.Follows.countMissed (h : a.Follows x e) (slot : Nat) :
    a.Follows x (e.countMissed slot) := h.same rfl

theorem Engine.Follows.countRetired (h : a.Follows x e) (slot : Nat) :
    a.Follows x (e.countRetired slot) := h.same rfl

theorem Engine.Follows.countDone (h : a.Follows x e) (slot : Nat) : a.Follows x (e.countDone slot) := h.same rfl

theorem Engine.Follows.mark (h : a.Follows x e) (slot : Nat) (c : Side) (pos : Nat) (v : Entry) :
    a.Follows x (e.mark slot c pos v) := h.same rfl

theorem Engine.Follows.sectorDone (h : a.Follows x e) (o : Order) (c : Side) (pos : Nat) :
    a.Follows x (e.sectorDone x o c pos) := by
  dsimp only [Engine.sectorDone]
  repeat' first
    | with_reducible exact h | split | with_reducible apply Follows.mark
    | with_reducible apply Follows.resolve | with_reducible apply Follows.countDone

theorem Engine.Follows.formatDone (h : a.Follows x e) (c : Side) (o : Order) (pos : Nat) :
    a.Follows x (e.formatDone c o pos) := by
  dsimp only [Engine.formatDone]
  repeat' first
    | with_reducible exact h | split | with_reducible apply Follows.countDone
    | with_reducible apply Follows.mark

theorem Engine.Follows.enterTrack (h : a.Follows x e) (c : Side) (o : Order) (track : Nat) :
    a.Follows x (e.enterTrack x c o track) := by
  dsimp only [Engine.enterTrack]
  repeat' first
    | with_reducible exact h | split | with_reducible apply Follows.updChan
    | with_reducible apply Follows.fillBuffers

theorem Engine.Follows.goToTrack (h : a.Follows x e) (c : Side) (o : Order) (track : Nat) (why : PosWhy)
    (forced : Bool) :
    a.Follows x (e.goToTrack x c o track why forced) := by
  dsimp only [Engine.goToTrack]
  repeat' first
    | with_reducible exact h | split | with_reducible apply Follows.enter
    | with_reducible apply Follows.startPositioning

theorem Engine.Follows.recover (h : a.Follows x e) (c : Side) (o : Order) : a.Follows x (e.recover x c o) := by
  dsimp only [Engine.recover]
  repeat' first
    | with_reducible exact h | split | with_reducible apply Follows.goToTrack

theorem Engine.Follows.formatFailed (h : a.Follows x e) (c : Side) (o : Order) :
    a.Follows x (e.formatFailed x c o) := by
  dsimp only [Engine.formatFailed]
  repeat' first
    | with_reducible exact h | split | with_reducible apply Follows.setAct
    | with_reducible apply Follows.mark | with_reducible apply Follows.resolveAll
    | with_reducible apply Follows.setPending | (apply Follows.foldl; intro e i h)

theorem Engine.Follows.formatVerified (h : a.Follows x e) (c : Side) (o : Order) :
    a.Follows x (e.formatVerified x c o).1 := by
  dsimp only [Engine.formatVerified]
  repeat' first
    | with_reducible exact h | split | with_reducible apply Follows.updRun
    | with_reducible apply Follows.recover | with_reducible apply Follows.countRetry
    | with_reducible apply Follows.enter | with_reducible apply Follows.setAct
    | with_reducible apply Follows.formatFailed | with_reducible apply Follows.resolveAll

theorem Engine.Follows.leaveTrack (h : a.Follows x e) (c : Side) (o : Order) :
    a.Follows x (e.leaveTrack x c o) := by
  dsimp only [Engine.leaveTrack]
  repeat' first
    | with_reducible exact h | split | with_reducible apply Follows.enter
    | with_reducible apply Follows.release | with_reducible apply Follows.updChan
    | with_reducible apply Follows.failSide | with_reducible apply Follows.enterTrack
    | with_reducible apply Follows.goToTrack

theorem Engine.Follows.enterVerify (h : a.Follows x e) (c : Side) : a.Follows x (e.enterVerify x c) := by
  dsimp only [Engine.enterVerify]
  repeat' first
    | with_reducible exact h | split | with_reducible apply Follows.enter
    | with_reducible apply Follows.updChan | with_reducible apply Follows.searchAnew

theorem Engine.Follows.backToTrack (h : a.Follows x e) (c : Side) : a.Follows x (e.backToTrack x c) := by
  dsimp only [Engine.backToTrack]
  repeat' first
    | with_reducible exact h | split | with_reducible apply Follows.enter
    | with_reducible apply Follows.updChan | with_reducible apply Follows.searchAnew

theorem Engine.Follows.passEnd (h : a.Follows x e) (c : Side) (o : Order) : a.Follows x (e.passEnd x c o) := by
  have k := h.formatVerified c o
  dsimp only [Engine.passEnd]
  repeat' first
    | with_reducible exact h
    | split
    | with_reducible apply Follows.enterVerify
    | with_reducible apply Follows.leaveTrack
    | with_reducible apply Follows.stopOrder
    | with_reducible apply Follows.backToTrack
  all_goals (rename_i heq; rw [heq] at k)
  · exact k.release _
  · exact k

theorem Engine.Follows.goOn (n : Nat) (c : Side) :
    ∀ {e : Engine}, a.Follows x e → a.Follows x (Engine.goOn x n e c) := by
  induction n with
  | zero => exact fun h => h
  | succ n ih =>
    intro e h
    dsimp only [Engine.goOn]
    repeat' first
      | with_reducible exact h
      | split
      | with_reducible apply Follows.tryClean
      | with_reducible apply ih
      | with_reducible apply Follows.passEnd

theorem Engine.Follows.carryOn (h : a.Follows x e) (c : Side) :
    a.Follows x (e.carryOn x c) := Follows.goOn 8 c h

theorem Engine.Follows.startSide (h : a.Follows x e) (c : Side) (o : Order) :
    a.Follows x (e.startSide x c o) := by
  dsimp only [Engine.startSide]
  repeat' first
    | with_reducible exact h | split | with_reducible apply Follows.enter
    | with_reducible apply Follows.failSide | with_reducible apply Follows.updRun
    | with_reducible apply Follows.enterTrack | with_reducible apply Follows.carryOn

theorem Engine.Follows.resume (h : a.Follows x e) (c : Side) (o : Order) : a.Follows x (e.resume x c o) := by
  dsimp only [Engine.resume]
  repeat' first
    | with_reducible exact h | split | with_reducible apply Follows.countRetry
    | with_reducible apply Follows.enter | with_reducible apply Follows.setAct
    | with_reducible apply Follows.searchAnew | with_reducible apply Follows.fillBuffers
    | with_reducible apply Follows.carryOn

theorem Engine.Follows.confirmed (h : a.Follows x e) (c : Side) : a.Follows x (e.confirmed x c) := by
  dsimp only [Engine.confirmed]
  repeat' first
    | with_reducible exact h | split | with_reducible apply Follows.enter
    | with_reducible apply Follows.setAct | with_reducible apply Follows.startSide
    | with_reducible apply Follows.failSide | with_reducible apply Follows.enterTrack
    | with_reducible apply Follows.carryOn | with_reducible apply Follows.recover
    | with_reducible apply Follows.resume

theorem Engine.Follows.sectorFailed (h : a.Follows x e) (c : Side) (o : Order) (it : Item) (code :
    FinishCode) :
    a.Follows x (e.sectorFailed x c o it code) := by
  dsimp only [Engine.sectorFailed]
  repeat' first
    | with_reducible exact h | split | with_reducible apply Follows.updItem
    | with_reducible apply Follows.updChan | with_reducible apply Follows.setPending
    | with_reducible apply Follows.mark | with_reducible apply Follows.resolve
    | with_reducible apply Follows.fillBuffers

theorem Engine.Follows.readAgain (h : a.Follows x e) (c : Side) (sector : Nat) :
    a.Follows x (e.readAgain c sector) := h.same rfl

theorem Engine.Follows.attemptFailed (h : a.Follows x e) (c : Side) (o : Order) (it : Item) (code :
    FinishCode) :
    a.Follows x (e.attemptFailed x c o it code) := by
  dsimp only [Engine.attemptFailed]
  repeat' first
    | with_reducible exact h | split | with_reducible apply Follows.setAct
    | with_reducible apply Follows.mark | with_reducible apply Follows.updItem
    | with_reducible apply Follows.carryOn | with_reducible apply Follows.tryClean
    | with_reducible apply Follows.readAgain | with_reducible apply Follows.recover
    | with_reducible apply Follows.countRetry | with_reducible apply Follows.fillBuffers
    | with_reducible apply Follows.sectorFailed

theorem Engine.Follows.noteBadId (h : a.Follows x e) (c : Side) (k : Kind) :
    a.Follows x (e.noteBadId c k) := h.same rfl

theorem Engine.Follows.keepId (h : a.Follows x e) (c : Side) (d : Drive) (id : IdRead) :
    a.Follows x (e.keepId c d id) := by
  dsimp only [Engine.keepId]
  repeat' first
    | with_reducible exact h | split | with_reducible apply Follows.setDriveSame
    | with_reducible apply Follows.updRun | exact rfl

theorem Engine.Follows.keepFirst (h : a.Follows x e) (c : Side) (id : IdRead) :
    a.Follows x (e.keepFirst c id) := by
  dsimp only [Engine.keepFirst]
  repeat' first
    | with_reducible exact h | split | with_reducible apply Follows.recover
    | with_reducible apply Follows.updRun

theorem Engine.Follows.beginWrite (h : a.Follows x e) (c : Side) (o : Order) (it : Item) (buf : Option Side)
    (mark : Byte) (data : List Byte) :
    a.Follows x (e.beginWrite x c o it buf mark data) := by
  dsimp only [Engine.beginWrite]
  repeat' first
    | with_reducible exact h | split | with_reducible apply Follows.updItem
    | with_reducible apply Follows.updChan

theorem Engine.Follows.passOver (h : a.Follows x e) (c : Side) (o : Order) (it : Item) :
    a.Follows x (e.passOver c o it) := by
  dsimp only [Engine.passOver]
  repeat' first
    | with_reducible exact h | split | with_reducible apply Follows.countMissed
    | with_reducible apply Follows.updItem

theorem Engine.Follows.beginRead (h : a.Follows x e) (c : Side) (o : Order) (it : Item) :
    a.Follows x (e.beginRead c o it) := by
  dsimp only [Engine.beginRead]
  repeat' first
    | with_reducible exact h | split | with_reducible apply Follows.passOver
    | with_reducible apply Follows.updItem | with_reducible apply Follows.searchAnew
    | with_reducible apply Follows.updChan

theorem Engine.Follows.arriveWrite (h : a.Follows x e) (c : Side) (o : Order) (it : Item) :
    a.Follows x (e.arriveWrite x c o it) := by
  dsimp only [Engine.arriveWrite]
  repeat' first
    | with_reducible exact h | split | with_reducible apply Follows.beginWrite
    | with_reducible apply Follows.passOver

theorem Engine.Follows.arrive (h : a.Follows x e) (c : Side) (o : Order) (it : Item) (id : IdRead) :
    a.Follows x (e.arrive x c o it id) := by
  dsimp only [Engine.arrive]
  repeat' first
    | with_reducible exact h | split | with_reducible apply Follows.attemptFailed
    | with_reducible apply Follows.beginRead | with_reducible apply Follows.arriveWrite
    | with_reducible apply Follows.updItem | with_reducible apply Follows.carryOn
    | with_reducible apply Follows.passOver

theorem Engine.Follows.idInPass (h : a.Follows x e) (c : Side) (o : Order) (id : IdRead) :
    a.Follows x (e.idInPass x c o id) := by
  dsimp only [Engine.idInPass]
  repeat' first
    | with_reducible exact h | split | with_reducible apply Follows.setAct
    | with_reducible apply Follows.failSide | with_reducible apply Follows.updRun
    | with_reducible apply Follows.fillBuffers | with_reducible apply Follows.arrive

theorem Engine.Follows.readFailed (h : a.Follows x e) (c : Side) (pos : Nat) (buf : Side) :
    a.Follows x (e.readFailed x c pos buf) := by
  dsimp only [Engine.readFailed]
  repeat' first
    | with_reducible exact h | split | with_reducible apply Follows.updChan
    | with_reducible apply Follows.attemptFailed | with_reducible apply Follows.setAct
    | with_reducible apply Follows.tryClean

theorem Engine.Follows.noMarkBeforeId (h : a.Follows x e) (c : Side) : a.Follows x (e.noMarkBeforeId x c) := by
  dsimp only [Engine.noMarkBeforeId]
  repeat' first
    | with_reducible exact h | split | with_reducible apply Follows.readFailed

theorem Engine.Follows.judgeId (h : a.Follows x e) (c : Side) (bytes : List Byte) :
    a.Follows x (e.judgeId x c bytes) := by
  dsimp only [Engine.judgeId]
  repeat' first
    | with_reducible exact h | split | with_reducible apply Follows.noteBadId
    | with_reducible apply Follows.keepFirst | with_reducible apply Follows.confirmed
    | with_reducible apply Follows.confirmDiffers | with_reducible apply Follows.idInPass

theorem Engine.Follows.idPasses (h : a.Follows x e) (c : Side) (bytes : List Byte) :
    a.Follows x (e.idPasses x c bytes) := by
  dsimp only [Engine.idPasses]
  repeat' first
    | with_reducible exact h | split | with_reducible apply Follows.noMarkBeforeId
    | with_reducible apply Follows.keepId | with_reducible apply Follows.judgeId

theorem Engine.Follows.idField (h : a.Follows x e) (c : Side) (f : FieldRead) :
    a.Follows x (e.idField x c f) := by
  dsimp only [Engine.idField]
  repeat' first
    | with_reducible exact h | split | with_reducible apply Follows.idPasses

theorem Engine.Follows.takeRead (h : a.Follows x e) (c : Side) (o : Order) (pos : Nat) (buf : Side) :
    a.Follows x (e.takeRead x c o pos buf) := by
  dsimp only [Engine.takeRead]
  repeat' first
    | with_reducible exact h | split | with_reducible apply Follows.mark
    | with_reducible apply Follows.updItem | with_reducible apply Follows.updChan
    | with_reducible apply Follows.updOrder

theorem Engine.Follows.takeSkipped (h : a.Follows x e) (c : Side) (o : Order) (pos : Nat) (buf : Side) :
    a.Follows x (e.takeSkipped c o pos buf) := by
  dsimp only [Engine.takeSkipped]
  repeat' first
    | with_reducible exact h | split | with_reducible apply Follows.mark
    | with_reducible apply Follows.updItem | with_reducible apply Follows.updChan
    | with_reducible apply Follows.countDone

theorem Engine.Follows.takeChecked (h : a.Follows x e) (c : Side) (o : Order) (pos : Nat) (buf : Side) :
    a.Follows x (e.takeChecked x c o pos buf) := by
  dsimp only [Engine.takeChecked]
  repeat' first
    | with_reducible exact h | split | with_reducible apply Follows.updItem
    | with_reducible apply Follows.updChan | with_reducible apply Follows.sectorDone

theorem Engine.Follows.takeRetiredStop (h : a.Follows x e) (c : Side) (o : Order) (pos : Nat) (buf : Side) :
    a.Follows x (e.takeRetiredStop x c o pos buf) := by
  dsimp only [Engine.takeRetiredStop]
  repeat' first
    | with_reducible exact h | split | with_reducible apply Follows.updItem
    | with_reducible apply Follows.updChan | with_reducible apply Follows.mark
    | with_reducible apply Follows.setPending

theorem Engine.Follows.takeGood (h : a.Follows x e) (c : Side) (o : Order) (pos : Nat) (buf : Side) (retired
    : Bool) :
    a.Follows x (e.takeGood x c o pos buf retired) := by
  dsimp only [Engine.takeGood]
  repeat' first
    | with_reducible exact h | split | with_reducible apply Follows.countRetired
    | with_reducible apply Follows.takeRetiredStop | with_reducible apply Follows.takeChecked
    | with_reducible apply Follows.takeSkipped | with_reducible apply Follows.takeRead

theorem Engine.Follows.sectorMended (h : a.Follows x e) (c : Side) (o : Order) (it : Item) :
    a.Follows x (e.sectorMended x c o it) := by
  dsimp only [Engine.sectorMended]
  repeat' first
    | with_reducible exact h | split | with_reducible apply Follows.logRemove
    | with_reducible apply Follows.countDone

theorem Engine.Follows.readBack (h : a.Follows x e) (c : Side) (o : Order) (it : Item) :
    a.Follows x (e.readBack x c o it) := by
  dsimp only [Engine.readBack]
  repeat' first
    | with_reducible exact h | split | with_reducible apply Follows.updItem
    | with_reducible apply Follows.sectorMended | with_reducible apply Follows.formatDone
    | with_reducible apply Follows.sectorDone

theorem Engine.Follows.readOver (h : a.Follows x e) (c : Side) : a.Follows x (e.readOver x c) := by
  dsimp only [Engine.readOver]
  repeat' first
    | with_reducible exact h | split | with_reducible apply Follows.setAct
    | with_reducible apply Follows.carryOn

theorem Engine.Follows.judgeData (h : a.Follows x e) (c : Side) (o : Order) (it : Item) (buf : Side) (bytes
    : List Byte) :
    a.Follows x (e.judgeData x c o it buf bytes) := by
  dsimp only [Engine.judgeData]
  repeat' first
    | with_reducible exact h | split | with_reducible apply Follows.updChan
    | with_reducible apply Follows.attemptFailed | with_reducible apply Follows.mark
    | with_reducible apply Follows.readBack | with_reducible apply Follows.carryOn
    | with_reducible apply Follows.updItem | with_reducible apply Follows.setAct
    | with_reducible apply Follows.takeGood | with_reducible apply Follows.readOver

theorem Engine.Follows.dataField (h : a.Follows x e) (c : Side) (f : FieldRead) :
    a.Follows x (e.dataField x c f) := by
  dsimp only [Engine.dataField]
  repeat' first
    | with_reducible exact h | split | with_reducible apply Follows.judgeData

theorem Engine.Follows.dataWritten (h : a.Follows x e) (c : Side) : a.Follows x (e.dataWritten x c) := by
  dsimp only [Engine.dataWritten]
  repeat' first
    | with_reducible exact h | split | with_reducible apply Follows.updChan
    | with_reducible apply Follows.tryClean | with_reducible apply Follows.setBack
    | with_reducible apply Follows.updItem | with_reducible apply Follows.mark
    | with_reducible apply Follows.setAct | with_reducible apply Follows.sectorDone
    | with_reducible apply Follows.fillBuffers | with_reducible apply Follows.carryOn

theorem Engine.Follows.copied (h : a.Follows x e) (c : Side) (t : Transfer) : a.Follows x (e.copied x c t) := by
  dsimp only [Engine.copied]
  repeat' first
    | with_reducible exact h | split | with_reducible apply Follows.updChan
    | with_reducible apply Follows.tryClean | with_reducible apply Follows.mark
    | with_reducible apply Follows.countDone | with_reducible apply Follows.updItem
    | with_reducible apply Follows.carryOn

theorem Engine.Follows.fetched (h : a.Follows x e) (c : Side) (t : Transfer) (data : List Byte) :
    a.Follows x (e.fetched x c t data) := by
  dsimp only [Engine.fetched]
  repeat' first
    | with_reducible exact h | split | with_reducible apply Follows.updChan
    | with_reducible apply Follows.fillBuffers

theorem Engine.Follows.bufferError (h : a.Follows x e) (c : Side) (t : Transfer) :
    a.Follows x (e.bufferError x c t) := by
  dsimp only [Engine.bufferError]
  repeat' first
    | with_reducible exact h | split | with_reducible apply Follows.updChan
    | with_reducible apply Follows.tryClean | with_reducible apply Follows.mark
    | with_reducible apply Follows.updItem | with_reducible apply Follows.setPending

theorem Engine.Follows.passAcross (h : a.Follows x e) (c : Side) : a.Follows x (e.passAcross x c) := by
  dsimp only [Engine.passAcross]
  repeat' first
    | with_reducible exact h | split | with_reducible apply Follows.updChan
    | with_reducible apply Follows.updItem | with_reducible apply Follows.carryOn

theorem Engine.Follows.searchTimeout (h : a.Follows x e) (c : Side) (sector : Nat) :
    a.Follows x (e.searchTimeout x c sector) := by
  dsimp only [Engine.searchTimeout]
  repeat' first
    | with_reducible exact h | split | with_reducible apply Follows.attemptFailed

theorem Engine.Follows.pulseSearches (h : a.Follows x e) (c : Side) (k : Kind) (busy : Option Nat) :
    a.Follows x (e.pulseSearches c k busy) := h.same rfl

theorem Engine.Follows.beginFormat (h : a.Follows x e) (c : Side) (o : Order) :
    a.Follows x (e.beginFormat x c o) := by
  dsimp only [Engine.beginFormat]
  split
  · exact h.same rfl
  · exact h

theorem Engine.Follows.endFormat (h : a.Follows x e) (c : Side) (o : Order) :
    a.Follows x (e.endFormat x c o) := by
  dsimp only [Engine.endFormat]
  repeat' first
    | with_reducible exact h | split | with_reducible apply Follows.setBack
    | with_reducible apply Follows.updChan | with_reducible apply Follows.mark
    | with_reducible apply Follows.formatDone | with_reducible apply Follows.release
    | with_reducible apply Follows.enterVerify | with_reducible apply Follows.resolveAll
    | (apply Follows.foldl; intro e i h)

theorem Engine.Follows.trySurveyEnd (h : a.Follows x e) (c : Side) : a.Follows x (e.trySurveyEnd x c) := by
  dsimp only [Engine.trySurveyEnd]
  repeat' first
    | with_reducible exact h | split | with_reducible apply Follows.endSurveyStep

theorem Engine.Follows.channelPulse (h : a.Follows x e) (c : Side) (elapsed : Nat) :
    a.Follows x (e.channelPulse x c elapsed) := by
  dsimp only [Engine.channelPulse]
  repeat' first
    | with_reducible exact h | split | with_reducible apply Follows.setAct
    | with_reducible apply Follows.trySurveyEnd | with_reducible apply Follows.confirmed
    | with_reducible apply Follows.beginFormat | with_reducible apply Follows.endFormat
    | with_reducible apply Follows.pulseSearches | with_reducible apply Follows.readFailed

theorem Engine.Follows.indexPulse (h : a.Follows x e) (c : Side) (elapsed : Nat) :
    a.Follows x (e.indexPulse x c elapsed) := by
  dsimp only [Engine.indexPulse]
  repeat' first
    | with_reducible exact h | split | with_reducible apply Follows.countPulse
    | with_reducible apply Follows.channelPulse

theorem Engine.Follows.finalFillEnd (h : a.Follows x e) (c : Side) : a.Follows x (e.finalFillEnd x c) := by
  dsimp only [Engine.finalFillEnd]
  repeat' first
    | with_reducible exact h | split | with_reducible apply Follows.endFormat

theorem Engine.Follows.noteRoom (h : a.Follows x e) (c : Side) (slot : Nat) :
    a.Follows x (e.noteRoom x c slot) := by
  dsimp only [Engine.noteRoom]
  repeat' first
    | with_reducible exact h | split | with_reducible apply Follows.updOrder
    | with_reducible apply Follows.setAttention

theorem Engine.Follows.noteRooms (h : a.Follows x e) (c : Side) : a.Follows x (e.noteRooms x c) := by
  dsimp only [Engine.noteRooms]
  repeat' first
    | with_reducible exact h | split | with_reducible apply Follows.noteRoom
    | (apply Follows.foldl; intro e i h)

theorem Engine.Follows.choose (h : a.Follows x e) (c : Side) : a.Follows x (e.choose x c) := by
  dsimp only [Engine.choose]
  split
  · exact h.noteRooms _
  · exact (h.noteRooms _).same rfl

theorem Engine.Follows.bind (h : a.Follows x e) (c : Side) (slot : Nat) :
    a.Follows x (e.bind c slot) := h.same rfl

theorem Engine.Follows.unbind (h : a.Follows x e) (c : Side) : a.Follows x (e.unbind c) := h.same rfl

theorem Engine.Follows.markServed (h : a.Follows x e) (slot : Nat) (c : Side) :
    a.Follows x (e.markServed slot c) := h.same rfl

theorem Engine.Follows.beginPositioning (h : a.Follows x e) (c : Side) :
    a.Follows x (e.beginPositioning x c) := by
  dsimp only [Engine.beginPositioning]
  repeat' first
    | with_reducible exact h | split | with_reducible apply Follows.enter
    | with_reducible apply Follows.select | with_reducible apply Follows.setAct
    | with_reducible apply Follows.release | with_reducible apply Follows.failSide
    | with_reducible apply Follows.markServed | with_reducible apply Follows.updChan
    | with_reducible apply Follows.startPositioning

theorem Engine.Follows.beginPartnerWait (h : a.Follows x e) (c : Side) :
    a.Follows x (e.beginPartnerWait x c) := by
  dsimp only [Engine.beginPartnerWait]
  repeat' first
    | with_reducible exact h | split | with_reducible apply Follows.enter
    | with_reducible apply Follows.select | with_reducible apply Follows.setAct
    | with_reducible apply Follows.tryClean | with_reducible apply Follows.holdFailure
    | with_reducible apply Follows.updChan | with_reducible apply Follows.startPositioning

theorem Engine.Follows.beginStep (h : a.Follows x e) (c : Side) : a.Follows x (e.beginStep x c) := by
  dsimp only [Engine.beginStep]
  repeat' first
    | with_reducible exact h | split | with_reducible apply Follows.enter
    | with_reducible apply Follows.select | with_reducible apply Follows.setAct
    | with_reducible apply Follows.endSurveyStep

theorem Engine.Follows.start (h : a.Follows x e) (c : Side) (b : Begin) : a.Follows x (e.start x c b) := by
  dsimp only [Engine.start]
  repeat' first
    | with_reducible exact h | split | with_reducible apply Follows.beginPositioning
    | with_reducible apply Follows.beginPartnerWait | with_reducible apply Follows.beginStep

theorem Engine.Follows.startOrDefer (h : a.Follows x e) (c : Side) (b : Begin) :
    a.Follows x (e.startOrDefer x c b) := by
  dsimp only [Engine.startOrDefer]
  repeat' first
    | with_reducible exact h | split | with_reducible apply Follows.updChan
    | with_reducible apply Follows.start

theorem Engine.Follows.setTurn (h : a.Follows x e) (o : Order) (t : Turn) :
    a.Follows x (e.setTurn o t) := h.same rfl

theorem Engine.Follows.planRun (h : a.Follows x e) (o : Order) (f : Order → Order) :
    a.Follows x (e.planRun x o f) := h.same rfl

theorem Engine.Follows.run (h : a.Follows x e) (o : Order) (plan : BySide Bool) :
    a.Follows x (e.run x o plan) := by
  dsimp only [Engine.run]
  repeat' first
    | with_reducible exact h | split | with_reducible apply Follows.planRun
    | with_reducible apply Follows.reserve | with_reducible apply Follows.writePhase

theorem Engine.Follows.leaveOut (h : a.Follows x e) (slot : Nat) (c : Side) :
    a.Follows x (e.leaveOut x slot c) := by
  dsimp only [Engine.leaveOut]
  repeat' first
    | with_reducible exact h | split | with_reducible apply Follows.updOrder
    | with_reducible apply Follows.resolveAll

theorem Engine.Follows.grantOne (h : a.Follows x e) (c : Side) (o : Order) :
    a.Follows x (e.grantOne x c o) := by
  dsimp only [Engine.grantOne]
  repeat' first
    | with_reducible exact h | split | with_reducible apply Follows.run | with_reducible apply Follows.bind
    | with_reducible apply Follows.leaveOut | with_reducible apply Follows.startOrDefer

theorem Engine.Follows.startIfHeld (h : a.Follows x e) (c : Side) (slot : Nat) :
    a.Follows x (e.startIfHeld x c slot) := by
  dsimp only [Engine.startIfHeld]
  repeat' first
    | with_reducible exact h | split | with_reducible apply Follows.startOrDefer

theorem Engine.Follows.grantTwo (h : a.Follows x e) (c : Side) (o : Order) :
    a.Follows x (e.grantTwo x c o) := by
  dsimp only [Engine.grantTwo]
  repeat' first
    | with_reducible exact h | split | with_reducible apply Follows.run | with_reducible apply Follows.bind
    | with_reducible apply Follows.unbind | with_reducible apply Follows.decideFinish
    | with_reducible apply Follows.setTurn | with_reducible apply Follows.startIfHeld
    | with_reducible apply Follows.planRun | with_reducible apply Follows.reserve
    | with_reducible apply Follows.startOrDefer

theorem Engine.Follows.takeClaim (h : a.Follows x e) (c : Side) : a.Follows x (e.takeClaim x c) := by
  dsimp only [Engine.takeClaim]
  repeat' first
    | with_reducible exact h | split | with_reducible apply Follows.updChan
    | with_reducible apply Follows.noteRoom | with_reducible apply Follows.grantTwo
    | with_reducible apply Follows.grantOne

theorem Engine.Follows.joinWaiter (h : a.Follows x e) (w : Side) (slot : Nat) :
    a.Follows x (e.joinWaiter x w slot) := by
  dsimp only [Engine.joinWaiter]
  repeat' first
    | with_reducible exact h | split | with_reducible apply Follows.updChan
    | with_reducible apply Follows.failSide | with_reducible apply Follows.tryClean
    | with_reducible apply Follows.startSide | with_reducible apply Follows.release
    | with_reducible apply Follows.goToTrack | with_reducible apply Follows.enter
    | with_reducible apply Follows.updPositioning | with_reducible apply Follows.startPositioning

theorem Engine.Follows.serveWaiter (h : a.Follows x e) (w : Side) (slot : Nat) :
    a.Follows x (e.serveWaiter w slot) := by
  dsimp only [Engine.serveWaiter]
  repeat' first
    | with_reducible exact h | split | with_reducible apply Follows.markServed

theorem Engine.Follows.takeover (h : a.Follows x e) (j : Side) (o : Order) :
    a.Follows x (e.takeover x j o) := by
  dsimp only [Engine.takeover]
  repeat' first
    | with_reducible exact h | split | with_reducible apply Follows.updOrder
    | with_reducible apply Follows.writePhase | with_reducible apply Follows.bind
    | with_reducible apply Follows.serveWaiter | with_reducible apply Follows.startOrDefer
    | with_reducible apply Follows.joinWaiter | with_reducible apply Follows.unbind
    | with_reducible apply Follows.decideFinish | with_reducible apply Follows.freeWaiter
    | with_reducible apply Follows.setTurn

theorem Engine.Follows.startTouch (h : a.Follows x e) (c : Side) (p : PairId) (first : Bool) :
    a.Follows x (e.startTouch c p first) := h.same rfl

theorem Engine.Follows.takeStep (h : a.Follows x e) (c : Side) (d : Drive) :
    a.Follows x (e.takeStep x c d) := by
  dsimp only [Engine.takeStep]
  repeat' first
    | with_reducible exact h | split | with_reducible apply Follows.updChan
    | with_reducible apply Follows.beginStep | exact h.same rfl

theorem Engine.Follows.takeNext (h : a.Follows x e) (c : Side) : a.Follows x (e.takeNext x c).1 := by
  dsimp only [Engine.takeNext]
  repeat' first
    | with_reducible exact h | split | with_reducible apply Follows.takeover
    | with_reducible apply Follows.choose | with_reducible apply Follows.takeStep

theorem Engine.Follows.settleChannel (h : a.Follows x e) (c : Side) : a.Follows x (e.settleChannel x c).1 := by
  dsimp only [Engine.settleChannel]
  repeat' first
    | with_reducible exact h | split | with_reducible apply Follows.takeNext
    | with_reducible apply Follows.startTouch

theorem Engine.Follows.settleLoop (n : Nat) : ∀ {e : Engine}, a.Follows x e →
    a.Follows x (Engine.settleLoop x n e) := by
  induction n with
  | zero => exact fun h => h
  | succ n ih =>
    intro e h
    have k := (h.settleChannel .A).settleChannel .B
    dsimp only [Engine.settleLoop]
    split
    · exact ih k
    · exact k

theorem Engine.Follows.settle (h : a.Follows x e) : a.Follows x (e.settle x) := by
  dsimp only [Engine.settle]
  split
  · exact Follows.settleLoop 12 h
  · exact h

theorem Engine.Follows.configChannel (h : a.Follows x e) (c : Side) : a.Follows x (e.configChannel x c) := by
  dsimp only [Engine.configChannel]
  repeat' first
    | with_reducible exact h | split | with_reducible apply Follows.startTouch
    | with_reducible apply Follows.updChan | with_reducible apply Follows.enter

theorem Engine.Follows.finishIfWaiting (h : a.Follows x e) (slot : Nat) (code : FinishCode) :
    a.Follows x (e.finishIfWaiting x slot code) := by
  dsimp only [Engine.finishIfWaiting]
  repeat' first
    | with_reducible exact h | split | with_reducible apply Follows.finishWaiting

theorem Engine.Follows.stopAll (h : a.Follows x e) : a.Follows x (e.stopAll x) := by
  dsimp only [Engine.stopAll]
  repeat' first
    | with_reducible exact h | split | with_reducible apply Follows.finishIfWaiting
    | (apply Follows.foldl; intro e i h)

theorem Engine.Follows.abortOrder (h : a.Follows x e) (slot : Nat) : a.Follows x (e.abortOrder x slot) := by
  dsimp only [Engine.abortOrder]
  repeat' first
    | with_reducible exact h | split | with_reducible apply Follows.updOrder
    | with_reducible apply Follows.stopOrder | with_reducible apply Follows.finishWaiting

theorem Engine.Follows.finishDirect (h : a.Follows x e) (slot : Nat) (r : Results) (notify : Bool) (how :
    DoneHow) :
    a.Follows x (e.finishDirect x slot r notify how) := h.same rfl

theorem Engine.Follows.unwait (h : a.Follows x e) (p : PairId) (slot : Nat) :
    a.Follows x (e.unwait x p slot) := by
  dsimp only [Engine.unwait]
  repeat' first
    | with_reducible exact h | split | with_reducible apply Follows.unreserve
    | with_reducible apply Follows.updOrder | with_reducible apply Follows.freeWaiter

theorem Engine.Follows.detach (h : a.Follows x e) (d : Drive) : a.Follows x (e.detach x d) := by
  dsimp only [Engine.detach]
  split
  · exact h
  · exact Follows.foldl _ _ (fun e i h => h.unwait _ _) (h.pairDetach d)

theorem Engine.Follows.immediate (h : a.Follows x e) (f : OrderFields) : a.Follows x (e.immediate x f) := by
  dsimp only [Engine.immediate]
  split
  · exact h.updDrive _ _ rfl
  · exact h.updDrive _ _ rfl
  · exact h.detach _
  all_goals exact h

theorem Engine.Follows.withdraw (h : a.Follows x e) (slot : Nat) : a.Follows x (e.withdraw x slot).1 := by
  dsimp only [Engine.withdraw]
  repeat' first
    | with_reducible exact h | split | with_reducible apply Follows.updOrder
    | with_reducible apply Follows.stopOrder | with_reducible apply Follows.finishWaiting

theorem Engine.Follows.repost (h : a.Follows x e) (slot : Nat) : a.Follows x (e.repost slot).1 := by
  dsimp only [Engine.repost]
  repeat' first
    | with_reducible exact h | split | with_reducible apply Follows.updOrder

theorem Engine.Follows.takeSurvey (h : a.Follows x e) (m : SurveyMode) (w : Word) :
    a.Follows x (e.takeSurvey x m w).1 := by
  dsimp only [Engine.takeSurvey]
  repeat' first
    | with_reducible exact h | split | with_reducible apply Follows.setSurvey

theorem Engine.Follows.unloadExpiry (h : a.Follows x e) (d : Drive) : a.Follows x (e.unloadExpiry x d) := by
  dsimp only [Engine.unloadExpiry]
  repeat' first
    | with_reducible exact h | split | with_reducible apply Follows.updChan
    | with_reducible apply Follows.setTimer | with_reducible apply Follows.headUnloaded
    | with_reducible apply Follows.startTouch

theorem Engine.Follows.startDeferred (h : a.Follows x e) (c : Side) : a.Follows x (e.startDeferred x c) := by
  dsimp only [Engine.startDeferred]
  repeat' first
    | with_reducible exact h | split | with_reducible apply Follows.updChan
    | with_reducible apply Follows.setAct | with_reducible apply Follows.release
    | with_reducible apply Follows.start

theorem Engine.Follows.touchEnd (h : a.Follows x e) (c : Side) : a.Follows x (e.touchEnd x c) := by
  dsimp only [Engine.touchEnd]
  repeat' first
    | with_reducible exact h | split | with_reducible apply Follows.updChan
    | with_reducible apply Follows.headUnloaded | with_reducible apply Follows.startDeferred

theorem Engine.Follows.dueCheck (h : a.Follows x e) (round : BitVec 6) : a.Follows x (e.dueCheck x round) := by
  dsimp only [Engine.dueCheck]
  exact Follows.foldl _ _ (fun e o h => h.writePhase _ _ _) (h.same rfl)

theorem Engine.Follows.noIndex (h : a.Follows x e) (c : Side) : a.Follows x (e.noIndex x c) := by
  dsimp only [Engine.noIndex]
  repeat' first
    | with_reducible exact h | split | with_reducible apply Follows.speedFault

theorem Engine.Follows.protectStops (h : a.Follows x e) (d : Drive) : a.Follows x (e.protectStops x d) := by
  dsimp only [Engine.protectStops]
  repeat' first
    | with_reducible exact h | split | with_reducible apply Follows.failSide

theorem Engine.Follows.surveySample (h : a.Follows x e) (c : Side) : a.Follows x (e.surveySample x c) := by
  dsimp only [Engine.surveySample]
  repeat' first
    | with_reducible exact h | split | with_reducible apply Follows.setAct
    | with_reducible apply Follows.trySurveyEnd

theorem Engine.Follows.sample (h : a.Follows x e) (d : Drive) (l : Lines) : a.Follows x (e.sample x d l) := by
  dsimp only [Engine.sample]
  repeat' first
    | with_reducible exact h | split | with_reducible apply Follows.sampleReady
    | with_reducible apply Follows.sampleFlags | with_reducible apply Follows.protectStops
    | with_reducible apply Follows.surveySample

theorem Engine.Follows.surveyTimeout (h : a.Follows x e) (c : Side) : a.Follows x (e.surveyTimeout x c) := by
  dsimp only [Engine.surveyTimeout]
  repeat' first
    | with_reducible exact h | split | with_reducible apply Follows.setAct
    | with_reducible apply Follows.trySurveyEnd

end Follows

end Sys2Proof.Machine

namespace Sys2Proof.Machine

/-! ### What a command does to the held-order list and the split log -/

/-- The engine goes on from `e` to `e'` without an order joining or leaving the list: the same orders are held, the
split log keeps its form, and the held counts stay (R4 to R6, R58, R59). -/
structure Engine.Passes (e e' : Engine) : Prop where
  held : (e'.held.map Order.key).Perm (e.held.map Order.key)
  once : LogOnce e.log → LogOnce e'.log
  clear : LogClear e.pairs e.log → LogClear e'.pairs e'.log
  desks : e'.deskHeld = e.deskHeld
  counts : ∀ d, (e'.drive d).heldCount = (e.drive d).heldCount

theorem Engine.Passes.refl (e : Engine) : e.Passes e := ⟨.refl _, id, id, rfl, fun _ => rfl⟩

theorem Engine.Passes.trans {a b c : Engine} (h : a.Passes b) (k : b.Passes c) : a.Passes c :=
  ⟨k.held.trans h.held, fun x => k.once (h.once x), fun x => k.clear (h.clear x), k.desks.trans h.desks,
    fun d => (k.counts d).trans (h.counts d)⟩

/-- A change of parts that neither the list nor the log nor the counts are of. -/
theorem Engine.Passes.of_eq {e e' : Engine} (held : e'.held = e.held) (log : e'.log = e.log)
    (pairs : e'.pairs = e.pairs) (desks : e'.deskHeld = e.deskHeld) (drives : e'.drives = e.drives) : e.Passes e' :=
  ⟨held ▸ .refl _, fun h => log ▸ h, fun h => log ▸ pairs ▸ h, desks, fun d => by simp only [Engine.drive, drives]⟩

theorem Engine.Follows.counts {x : Front} {a e : Engine} (h : a.Follows x e) (d : Drive) :
    (e.drive d).heldCount = (a.drive d).heldCount := (h d).1

theorem Engine.Keeps.passes {x : Front} {a e : Engine} (h : a.Keeps e) (k : a.Follows x e) : a.Passes e :=
  ⟨h.held, h.log, h.clear, h.desks, k.counts⟩

theorem Engine.Keeps.passesOf {a e : Engine} (h : a.Keeps e)
    (counts : ∀ d, (e.drive d).heldCount = (a.drive d).heldCount) : a.Passes e :=
  ⟨h.held, h.log, h.clear, h.desks, counts⟩

/-- The slots held stay the same. -/
theorem Engine.Passes.slots {e e' : Engine} (h : e.Passes e') :
    (e'.held.map Order.slot).Perm (e.held.map Order.slot) := by
  have := h.held.map Prod.fst
  simpa [List.map_map, Function.comp_def, Order.key] using this

/-- An order held after is one held before, in the part of its record that never changes. -/
theorem Engine.Passes.mem_key {e e' : Engine} (h : e.Passes e') (k : Nat × OrderFields) :
    (∃ o ∈ e'.held, o.key = k) ↔ ∃ o ∈ e.held, o.key = k := by
  simpa only [List.mem_map] using h.held.mem_iff (a := k)

theorem Engine.Passes.held_nil {e e' : Engine} (h : e.Passes e') (hn : e.held = []) : e'.held = [] := by
  have := h.held.length_eq
  simpa [hn] using this

/-- How many orders there are of a kind that slot and fields decide. -/
theorem Engine.Passes.countP {e e' : Engine} (h : e.Passes e') (p : Nat × OrderFields → Bool) :
    (e'.held.countP fun o => p o.key) = e.held.countP fun o => p o.key := by
  have := h.held.countP_eq p
  simpa [List.countP_map, Function.comp_def] using this

/-- An event lets no order join or leave: the engine's part; a POST that is in hand after it is one in hand before
or one just taken for a slot that is not held (R10); and where it ends in CONFIG or STARTING no order is held, or the
controller was there before (R160, R161). -/
structure State.Passes (s t : State) : Prop where
  engine : s.engine.Passes t.engine
  reading : ∀ w, t.front.intake = .reading w → s.front.intake = .reading w ∨
    (actionOperand w < 32 ∧ ∀ o ∈ s.engine.held, o.slot ≠ actionOperand w)
  idle : t.front.ctl = .config ∨ t.front.ctl = .starting →
    t.engine.held = [] ∨ s.front.ctl = .config ∨ s.front.ctl = .starting

theorem State.Passes.refl (s : State) : s.Passes s := ⟨.refl _, fun _ => .inl, .inr⟩

theorem State.Passes.trans {a b c : State} (h : a.Passes b) (k : b.Passes c) : a.Passes c := by
  refine ⟨h.engine.trans k.engine, fun w hw => ?_, fun hc => ?_⟩
  · rcases k.reading w hw with hr | ⟨hlt, hne⟩
    · exact h.reading w hr
    · refine .inr ⟨hlt, fun o ho => ?_⟩
      obtain ⟨o', ho', hk⟩ := (h.engine.mem_key o.key).mpr ⟨o, ho, rfl⟩
      have hs : o'.slot = o.slot := congrArg Prod.fst hk
      exact hs ▸ hne o' ho'
  · rcases k.idle hc with hn | hb
    · exact .inl hn
    · exact (h.idle hb).imp_left k.engine.held_nil

/-- A change of the engine with the intake and the controller state as they were. -/
theorem State.Passes.of_front {s t : State} (h : s.engine.Passes t.engine) (hi : t.front.intake = s.front.intake)
    (hc : t.front.ctl = s.front.ctl) : s.Passes t :=
  ⟨h, fun _ hw => .inl (hi ▸ hw), fun h => .inr (hc ▸ h)⟩

theorem State.PortOnly.passes {s t : State} (h : s.PortOnly t) : s.Passes t := by
  refine .of_front ?_ (by rw [h.front]) (by rw [h.front])
  rw [h.engine]
  exact ⟨.refl _, id, id, rfl, fun _ => rfl⟩

/-! ### The settling after an event -/

theorem Engine.releaseOutputs_counts (x : Front) (e : Engine) (d d' : Drive) :
    ((e.releaseOutputs x d).drive d').heldCount = (e.drive d').heldCount := by
  have set (k : Knowledge) (hk : k.heldCount = (e.drive d).heldCount) :
      ((e.setDrive d k).drive d').heldCount = (e.drive d').heldCount := by
    by_cases h : d' = d
    · subst h; simp [hk]
    · rw [e.drive_setDrive_of_ne k h]
  have written (b : Bool) (e' : Engine) :
      (if b = true then e'.writeStatus x d none else e').drive d' = e'.drive d' := by cases b <;> rfl
  unfold Engine.releaseOutputs
  dsimp only
  rw [written]
  exact set _ rfl

theorem Engine.releaseAll_counts (x : Front) (e : Engine) (d : Drive) :
    ((e.releaseAll x).drive d).heldCount = (e.drive d).heldCount := by
  simp only [Engine.releaseAll, Drive.all, List.foldl_cons, List.foldl_nil, Engine.releaseOutputs_counts]

theorem Engine.configChannels_counts (x : Front) (e : Engine) (d : Drive) :
    ((e.configChannels x).drive d).heldCount = (e.drive d).heldCount := by
  have k := (((Engine.Follows.refl x e).configChannel .A).configChannel .B).counts d
  unfold Engine.configChannels
  dsimp only
  split
  · rw [Engine.releaseAll_counts, k]
  · exact k

/-- Entering CONFIG lets no order join or leave. -/
theorem Engine.enterConfig_passes (x : Front) (e : Engine) : e.Passes (e.enterConfig x) :=
  (Engine.Keeps.refl e).enterConfig.passesOf fun d => Engine.configChannels_counts x _ d

theorem Engine.settle_passes (x : Front) (e : Engine) : e.Passes (e.settle x) :=
  (Engine.Keeps.refl e).settle.passes (Engine.Follows.refl x e).settle

/-- Settling lets no order join or leave, and ends in CONFIG from DRAINING only with no order held (R161). -/
theorem State.settle_passes (s : State) : s.Passes s.settle := by
  have k := Engine.settle_passes s.front s.engine
  unfold State.settle
  dsimp only
  split
  · rename_i hd
    refine ⟨k.trans (Engine.enterConfig_passes _ _), fun _ => .inl, fun _ => .inl ?_⟩
    have hn : (s.engine.settle s.front).held = [] := by
      have := hd.2
      simp only [Engine.drained, Bool.and_eq_true, List.isEmpty_iff] at this
      exact this.1.2
    exact (Engine.enterConfig_passes _ _).held_nil hn
  · exact .of_front k rfl rfl

/-- A change of the engine that an operation with `Keeps` and `Follows` makes. -/
theorem State.passes_engine {s : State} {e : Engine} (k : s.engine.Keeps e) (f : s.engine.Follows s.front e) :
    s.Passes { s with engine := e } := .of_front (k.passes f) rfl rfl

theorem State.engineEvent_passes (s : State) (f : Front → Engine → Engine)
    (hk : s.engine.Keeps (f s.front s.engine)) (hf : s.engine.Follows s.front (f s.front s.engine)) :
    s.Passes (s.engineEvent f) := by
  unfold State.engineEvent
  split
  · exact (State.passes_engine hk hf).trans (State.settle_passes _)
  · exact .refl s

/-! ### Actions -/

theorem State.await_passes {s s' : State} {p : Notice → Bool} {n : Notice} (a : s.await p = some (n, s')) :
    s.Passes s' := (State.await_only a).passes

/-- The intake becomes ready by serving the port alone. -/
theorem State.intakeReady_only {s s' : State} (h : s.intakeReady = some s') : s.PortOnly s' := by
  unfold State.intakeReady at h
  split at h
  · exact Option.some.inj h ▸ .refl s
  · obtain ⟨⟨n, s''⟩, hs, rfl⟩ := Option.map_eq_some_iff.mp h
    exact State.await_only hs
  all_goals cases h

/-- What an action taken is, and from where (R7, R168). -/
theorem State.takeAction_some {s s' : State} {row : Word → Bool} {w : Word}
    (h : s.takeAction row = some (w, s')) :
    s.front.active = true ∧ row w = true ∧ ∃ rest s1, s.front.actionQ = w :: rest ∧ s.intakeReady = some s1 ∧
      s' = { s1 with front := s1.front.popAction } := by
  unfold State.takeAction at h
  split at h
  · cases h
  · rename_i w' rest hq
    split at h
    · rename_i hr
      obtain ⟨s1, h1, he⟩ := Option.map_eq_some_iff.mp h
      cases he
      rw [Bool.and_eq_true] at hr
      exact ⟨hr.1, hr.2, rest, s1, hq, h1, rfl⟩
    · cases h

theorem State.takeAction_passes {s s' : State} {row : Word → Bool} {w : Word}
    (h : s.takeAction row = some (w, s')) : s.Passes s' ∧ row w = true := by
  obtain ⟨-, hr, rest, s1, -, h1, rfl⟩ := State.takeAction_some h
  refine ⟨(State.intakeReady_only h1).passes.trans ⟨.refl _, fun _ hw => ?_, .inr⟩, hr⟩
  cases hw

theorem State.answer_passes (s : State) (w : Word) (o : ActionOutcome) : s.Passes (s.answer w o) :=
  ⟨((Engine.Keeps.refl _).writeLastAction _ _).passes ((Engine.Follows.refl s.front _).writeLastAction _ _),
    fun _ hw => (by cases hw), .inr⟩

/-- An action lets no order join or leave where its effect does not. -/
theorem State.act_passes (s : State) (row : Word → Bool) (f : State → Word → State)
    (hf : ∀ (s : State) (w : Word), row w = true → s.Passes (f s w)) : s.Passes (s.act row f) := by
  unfold State.act
  split
  · exact .refl s
  · rename_i w s' h
    obtain ⟨hp, hr⟩ := State.takeAction_passes h
    split
    · exact (hp.trans (hf s' w hr)).trans (State.settle_passes _)
    · exact hp.trans (State.answer_passes _ _ _)

/-! ### The checks of START and of a posted order, as far as the list and the log need them -/

/-- An image entry that is taken: of an ATTACHED pair, for a sector not listed before (R62). -/
theorem imageEntry_some {pairs : ByPair PairRecord} {drives : ByDrive DriveRecord} {before : List LogEntry}
    {ws : List Word} {l : LogEntry} (h : imageEntry pairs drives before ws = some l) :
    (pairs.get l.pair).mode = .attached ∧ ∀ m ∈ before, l.sameSector m = false := by
  unfold imageEntry at h
  split at h
  · dsimp only at h
    split at h
    · rename_i hc
      cases h
      simp only [Bool.and_eq_true, Bool.not_eq_true', List.any_eq_false, beq_iff_eq] at hc
      exact ⟨hc.1.1.1.1.1.1.2, fun m hm => by simpa using hc.2 m hm⟩
    · cases h
  · cases h

theorem LogEntry.sameSector_comm (a b : LogEntry) : a.sameSector b = b.sameSector a := by
  simp only [LogEntry.sameSector, BEq.comm]

theorem imageEntries_ok {pairs : ByPair PairRecord} {drives : ByDrive DriveRecord} {n pos : Nat} {ws : List Word}
    {before log : List LogEntry} (h : imageEntries pairs drives n pos ws before = .ok log)
    (once : LogOnce before) (clear : LogClear pairs before) : LogOnce log ∧ LogClear pairs log := by
  induction n generalizing pos ws before with
  | zero =>
    cases h
    exact ⟨once, clear⟩
  | succ n ih =>
    unfold imageEntries at h
    split at h
    · cases h
    · rename_i l hl
      obtain ⟨hm, hs⟩ := imageEntry_some hl
      refine ih h (List.pairwise_append.mpr ⟨once, List.pairwise_singleton _ _, ?_⟩) fun m hmem => ?_
      · intro m hmb l' hl'
        rw [List.mem_singleton.mp hl', LogEntry.sameSector_comm]
        exact hs m hmb
      · rcases List.mem_append.mp hmem with hmb | hml
        · exact clear m hmb
        · rw [List.mem_singleton.mp hml, hm]
          exact PairMode.noConfusion

/-- What a START commits has a log in its form (R58, R59, R62). -/
theorem checkArea_ok {old : ByPair PairRecord} {a : AreaData} {image : List Word} {k : Commit}
    (h : checkArea old a image = .ok k) : LogOnce k.log ∧ LogClear k.pairs k.log := by
  unfold checkArea at h
  cases ht : checkTables old a with
  | error e => rw [ht] at h; cases h
  | ok p =>
    rw [ht] at h
    cases hi : imageOf p.2 p.1 (imageLength a) image with
    | error e => simp only [bind, Except.bind, hi] at h; cases h
    | ok log =>
      simp only [bind, Except.bind, hi] at h
      cases h
      unfold imageOf at hi
      split at hi
      · exact imageEntries_ok hi List.Pairwise.nil fun _ hm => absurd hm (List.not_mem_nil)
      · cases hi

end Sys2Proof.Machine

namespace Sys2Proof.Machine

/-! ### The rows that let no order join or leave the list -/

theorem State.failStart_passes (s : State) (code : ConfigErrorCode) (item : Nat)
    (h : s.front.ctl = .config ∨ s.front.ctl = .starting) : s.Passes (s.failStart code item) :=
  ⟨.of_eq rfl rfl rfl rfl rfl, fun _ => .inl, fun _ => .inr h⟩

theorem State.beginStart_passes (s : State) (h : s.front.ctl = .config ∨ s.front.ctl = .starting) :
    s.Passes s.beginStart := by
  unfold State.beginStart
  split
  · exact s.failStart_passes _ _ h
  · exact ⟨.of_eq rfl rfl rfl rfl rfl, fun _ => .inl, fun _ => .inr h⟩

theorem State.tryStart_passes (s : State) : s.Passes s.tryStart := by
  unfold State.tryStart
  split
  · rename_i h
    exact s.beginStart_passes (.inr h.1)
  · exact .refl s

theorem execStart_passes {s t : State} (h : execStart s = .next t) : s.Passes t := by
  cases h
  dsimp only
  split
  · rename_i h
    refine State.Passes.trans ?_ (State.tryStart_passes _)
    exact ⟨.of_eq rfl rfl rfl rfl rfl, fun _ => .inl, fun _ => .inr (.inl h.2)⟩
  · exact .refl s

theorem Engine.stopAll_keeps (x : Front) (e : Engine) (c : Ctl) (v : Survey) :
    e.Passes (((e.writeCtl x c).setSurvey x v).stopAll x) :=
  ((((Keeps.refl e).writeCtl c).setSurvey v).stopAll).passes ((((Follows.refl x e).writeCtl c).setSurvey v).stopAll)

theorem execStop_passes {s t : State} (h : execStop s = .next t) : s.Passes t := by
  cases h
  dsimp only
  split
  · refine State.Passes.trans ?_ (State.settle_passes _)
    exact ⟨Engine.stopAll_keeps _ _ _ _, fun _ => .inl, fun hc => by simp at hc⟩
  · exact .refl s

theorem execAbortAll_passes {s t : State} (h : execAbortAll s = .next t) : s.Passes t := by
  cases h
  dsimp only
  split
  · refine State.Passes.trans ?_ (State.settle_passes _)
    refine ⟨Engine.Keeps.passes (x := { s.front with actionQ := [] }) ?_ ?_, fun _ => .inl, .inr⟩
    · exact .foldl _ _ (fun e i h => h.abortOrder i) (.refl _)
    · exact .foldl _ _ (fun e i h => h.abortOrder i) (.refl _ _)
  · exact .refl s

theorem State.setClock_passes (s : State) (k : Clock) : s.Passes (s.setClock k) :=
  ⟨.of_eq rfl rfl rfl rfl rfl, fun _ => .inl, .inr⟩

theorem execClockLoad_passes {s t : State} (h : execClockLoad s = .next t) : s.Passes t := by
  cases h
  split
  · exact ⟨.of_eq rfl rfl rfl rfl rfl, fun _ => .inl, .inr⟩
  · exact .refl s

theorem execClockRun_passes {s t : State} (h : execClockRun s = .next t) : s.Passes t := by
  cases h
  dsimp only
  split
  · exact s.setClock_passes _
  · exact .refl s

theorem execClockHalt_passes {s t : State} (h : execClockHalt s = .next t) : s.Passes t := by
  cases h
  dsimp only
  split
  · exact s.setClock_passes _
  · exact .refl s

theorem execPresetReadComplete_passes {p : Word} {s t : State} (h : execPresetReadComplete p s = .next t) :
    s.Passes t := by
  cases h
  split
  · exact .refl s
  · rename_i a
    exact (State.await_passes a).trans (State.setClock_passes _ _)

theorem execAreaBaseWrite_passes {w : Word} {s t : State} (h : execAreaBaseWrite w s = .next t) :
    s.Passes t := by
  cases h
  dsimp only
  split
  · exact ⟨.of_eq rfl rfl rfl rfl rfl, fun _ => .inl, .inr⟩
  · exact .refl s

theorem execActionWrite_passes {w : Word} {s t : State} (h : execActionWrite w s = .next t) : s.Passes t := by
  cases h
  dsimp only
  split
  · split <;> exact ⟨.of_eq rfl rfl rfl rfl rfl, fun _ => .inl, .inr⟩
  · exact .refl s

theorem execDoneClear_passes {high : Bool} {w : Word} {s t : State} (h : execDoneClear high w s = .next t) :
    s.Passes t := by
  cases h
  split
  · exact ⟨.of_eq rfl rfl rfl rfl rfl, fun _ => .inl, .inr⟩
  · exact .refl s

theorem execAttentionClear_passes {w : Word} {s t : State} (h : execAttentionClear w s = .next t) :
    s.Passes t := by
  cases h
  split
  · exact ⟨.of_eq rfl rfl rfl rfl rfl, fun _ => .inl, .inr⟩
  · exact .refl s

/-- A POST in hand is for a slot of the 32 that no held order has (R10). -/
theorem execPost_passes {s t : State} (h : execPost s = .next t) : s.Passes t := by
  cases h
  refine State.act_passes s _ _ fun s w hr => ?_
  split
  · exact s.answer_passes _ _
  · rename_i hn
    refine ⟨.of_eq rfl rfl rfl rfl rfl, fun w' hw => .inr ?_, .inr⟩
    cases hw
    rw [slotAction, Bool.and_eq_true, decide_eq_true_eq] at hr
    refine ⟨by omega, fun o ho hs => hn ?_⟩
    exact List.find?_isSome.mpr ⟨o, ho, by simp [hs]⟩

theorem execWithdraw_passes {s t : State} (h : execWithdraw s = .next t) : s.Passes t := by
  cases h
  refine State.act_passes s _ _ fun s w _ => ?_
  have k : s.Passes { s with engine := (s.engine.withdraw s.front (actionOperand w)).1 } :=
    State.passes_engine ((Engine.Keeps.refl _).withdraw _) ((Engine.Follows.refl _ _).withdraw _)
  dsimp only [State.answerWithdraw]
  split
  · exact k.trans ⟨.of_eq rfl rfl rfl rfl rfl, fun _ hw => (by cases hw), .inr⟩
  · exact k.trans (State.answer_passes _ _ _)

theorem execRepost_passes {s t : State} (h : execRepost s = .next t) : s.Passes t := by
  cases h
  refine State.act_passes s _ _ fun s w _ => ?_
  exact (State.passes_engine ((Engine.Keeps.refl _).repost _) ((Engine.Follows.refl _ _).repost _)).trans
    (State.answer_passes _ _ _)

theorem State.takeSurvey_passes (s : State) (m : SurveyMode) (w : Word) :
    s.Passes { s with engine := (s.engine.takeSurvey s.front m w).1 } :=
  State.passes_engine ((Engine.Keeps.refl _).takeSurvey _ _) ((Engine.Follows.refl _ _).takeSurvey _ _)

theorem execSurveyOnce_passes {s t : State} (h : execSurveyOnce s = .next t) : s.Passes t := by
  cases h
  exact State.act_passes s _ _ fun s w _ => (s.takeSurvey_passes _ w).trans (State.answer_passes _ _ _)

theorem execSurveyLoop_passes {s t : State} (h : execSurveyLoop s = .next t) : s.Passes t := by
  cases h
  exact State.act_passes s _ _ fun s w _ => (s.takeSurvey_passes _ w).trans (State.answer_passes _ _ _)

theorem execSurveyStop_passes {s t : State} (h : execSurveyStop s = .next t) : s.Passes t := by
  cases h
  refine State.act_passes s _ _ fun s w _ => ?_
  exact (State.passes_engine ((Engine.Keeps.refl _).setSurvey _) ((Engine.Follows.refl _ _).setSurvey _)).trans
    (State.answer_passes _ _ _)

theorem execBadAction_passes {s t : State} (h : execBadAction s = .next t) : s.Passes t := by
  cases h
  split
  · exact .refl s
  · rename_i h
    exact (State.takeAction_passes h).1.trans (State.answer_passes _ _ _)

theorem execResetLineRelease_passes {s t : State} (h : execResetLineRelease s = .next t) : s.Passes t := by
  cases h
  exact ⟨.of_eq rfl rfl rfl rfl rfl, fun _ => .inl, .inr⟩

theorem execBusGrant_passes {s t : State} (h : execBusGrant s = .next t) : s.Passes t := by
  cases h
  exact s.grant_only.passes

theorem execBusErrorRecord_passes {n : Nat} {s t : State} (h : execBusErrorRecord n s = .next t) :
    s.Passes t := by
  cases h
  dsimp only
  split
  · exact .refl s
  · split
    · refine (s.serveTo_only State.onRecord).passes.trans ?_
      split
      · exact ⟨.of_eq rfl rfl rfl rfl rfl, fun _ => .inl, .inr⟩
      · exact ⟨.of_eq rfl rfl rfl rfl rfl, fun _ => .inl, fun hc => by simp [Front.fault] at hc⟩
    · exact .refl s

theorem execMemoryError_passes {c : Side} {s t : State} (h : execMemoryError c s = .next t) : s.Passes t := by
  cases h
  split
  · refine ((s.serveTo_only (State.onWord c)).passes.trans (State.portIdle_only _).passes).trans ?_
    exact State.engineEvent_passes _ _ ((Engine.Keeps.refl _).bufferError _ _)
      ((Engine.Follows.refl _ _).bufferError _ _)
  · exact .refl s

theorem State.transferDone_passes (s : State) (c : Side) (toHost : Bool) (f : Front → Engine → Transfer → Engine)
    (hk : ∀ x (e : Engine) t, e.Keeps (f x e t)) (hf : ∀ x (e : Engine) t, e.Follows x (f x e t)) :
    s.Passes (s.transferDone c toHost f) := by
  unfold State.transferDone
  split
  · dsimp only
    refine (s.serve_only (State.moved c toHost)).passes.trans ?_
    split
    · exact .refl _
    · exact State.engineEvent_passes _ _ (hk _ _ _) (hf _ _ _)
  · exact .refl s

theorem execBufferCopyComplete_passes {c : Side} {s t : State} (h : execBufferCopyComplete c s = .next t) :
    s.Passes t := by
  cases h
  exact s.transferDone_passes _ _ _ (fun _ e _ => (Engine.Keeps.refl e).copied _ _)
    fun _ e _ => (Engine.Follows.refl _ e).copied _ _

theorem execBufferFetchComplete_passes {c : Side} {data : List Byte} {s t : State}
    (h : execBufferFetchComplete c data s = .next t) : s.Passes t := by
  cases h
  exact s.transferDone_passes _ _ _ (fun _ e _ => (Engine.Keeps.refl e).fetched _ _ _)
    fun _ e _ => (Engine.Follows.refl _ e).fetched _ _ _

/-- The rows that only set an ATTENTION bit once a write has completed. -/
theorem State.attention_passes {s s' : State} {p : Notice → Bool} {n : Notice} (a : s.await p = some (n, s'))
    (bit : Nat) : s.Passes { s' with engine := s'.engine.setAttention bit } :=
  (State.await_passes a).trans ⟨.of_eq rfl rfl rfl rfl rfl, fun _ => .inl, .inr⟩

theorem execDriveAttention_passes {d : Drive} {s t : State} (h : execDriveAttention d s = .next t) :
    s.Passes t := by
  cases h
  split
  · exact .refl s
  · exact State.attention_passes ‹_› _

theorem execSurveyDone_passes {s t : State} (h : execSurveyDone s = .next t) : s.Passes t := by
  cases h
  split
  · exact .refl s
  · exact State.attention_passes ‹_› _

theorem execConfigError_passes {s t : State} (h : execConfigError s = .next t) : s.Passes t := by
  cases h
  split
  · exact .refl s
  · exact State.attention_passes ‹_› _

theorem execAgeTick_passes {s t : State} (h : execAgeTick s = .next t) : s.Passes t := by
  cases h
  dsimp only
  split
  · refine .of_front ⟨?_, id, id, rfl, fun _ => rfl⟩ rfl rfl
    have key (o : Order) : o.ageTick.key = o.key := by unfold Order.ageTick; split <;> rfl
    simp [List.map_map, Function.comp_def, key]
  · exact .refl s

theorem execSurveyWaitExpiry_passes {s t : State} (h : execSurveyWaitExpiry s = .next t) : s.Passes t := by
  cases h
  exact s.settle_passes

theorem Engine.configTouchEnd_passes (x : Front) (e : Engine) (c : Side) : e.Passes (e.configTouchEnd x c) := by
  refine ((Engine.Keeps.refl e).configTouchEnd c).passesOf fun d => ?_
  unfold Engine.configTouchEnd
  split
  · rfl
  · rename_i t _
    rw [Engine.configChannels_counts]
    exact (((Follows.refl x e).updChan c fun ch => { ch with touch := none }).changeDrive ⟨c, t.pair⟩
      (fun k => { k with loaded := false }) rfl).counts d

theorem execUnloadTouchEnd_passes {c : Side} {s t : State} (h : execUnloadTouchEnd c s = .next t) :
    s.Passes t := by
  have touch : s.Passes (s.engineEvent fun x e => e.touchEnd x c) :=
    State.engineEvent_passes _ _ ((Engine.Keeps.refl _).touchEnd _) ((Engine.Follows.refl _ _).touchEnd _)
  have config : s.Passes ({ s with engine := s.engine.configTouchEnd s.front c } : State).tryStart := by
    refine State.Passes.trans ?_ (State.tryStart_passes _)
    exact .of_front (Engine.configTouchEnd_passes _ _ _) rfl rfl
  cases h
  split
  · exact touch
  · exact touch
  · exact config
  · exact config
  · exact .refl s

theorem execRoundTick_passes {s t : State} (h : execRoundTick s = .next t) : s.Passes t := by
  cases h
  dsimp only
  split
  · refine State.Passes.trans ?_ (State.settle_passes _)
    refine ⟨?_, fun _ => .inl, .inr⟩
    dsimp only
    split
    · exact (((Engine.Keeps.refl _).headerWrite _ _).dueCheck _).passes
        (((Engine.Follows.refl _ _).headerWrite _ _).dueCheck _)
    · exact .of_eq rfl rfl rfl rfl rfl
  · exact .refl s

theorem Engine.close_passes (x : Front) (e : Engine) : e.Passes (e.close x) := by
  have late (e' : Engine) (l : List Nat) : e'.Passes (l.foldl (fun e slot => e.finishWaiting x slot .late true) e') :=
    Engine.Keeps.passes (x := x) (.foldl _ _ (fun e i h => h.finishWaiting i _ _) (.refl _))
      (.foldl _ _ (fun e i h => h.finishWaiting i _ _) (.refl _ _))
  unfold Engine.close
  dsimp only
  split
  · exact .of_eq rfl rfl rfl rfl rfl
  · refine Engine.Passes.trans ?_ (late _ _)
    exact .of_eq rfl rfl rfl rfl rfl

theorem execEditionCount_passes {s t : State} (h : execEditionCount s = .next t) : s.Passes t := by
  cases h
  dsimp only
  split
  · refine State.Passes.trans (State.Passes.trans (s.setClock_passes s.front.clock.count) ?_) (State.settle_passes _)
    split
    · exact .of_front (Engine.close_passes _ _) rfl rfl
    · exact .refl _
  · split
    · exact ⟨.of_eq rfl rfl rfl rfl rfl, fun _ => .inl, .inr⟩
    · exact .refl s

theorem execStepTimeEnd_passes {c : Side} {trk0 : Bool} {s t : State} (h : execStepTimeEnd c trk0 s = .next t) :
    s.Passes t := by
  cases h
  have line : s.Passes (s.trackLine c trk0) := by
    unfold State.trackLine
    split
    · exact ⟨.refl _, fun _ => .inl, .inr⟩
    · exact .refl s
  exact line.trans (State.engineEvent_passes _ _ ((Engine.Keeps.refl _).stepEnd _ _)
    ((Engine.Follows.refl _ _).stepEnd _ _))

theorem execReadySample_passes {d : Drive} {l : Lines} {s t : State} (h : execReadySample d l s = .next t) :
    s.Passes t := by
  cases h
  refine State.Passes.trans (b := { s with front := s.front.setPins d l }) ⟨.refl _, fun _ => .inl, .inr⟩ ?_
  exact State.engineEvent_passes _ _ ((Engine.Keeps.refl _).sample _ _) ((Engine.Follows.refl _ _).sample _ _)

/-- A row that is an event at the engine. -/
theorem State.eventRow_passes {s t : State} {f : Front → Engine → Engine}
    (h : (Host.Outcome.next (s.engineEvent f) : Result) = .next t) (hk : ∀ x (e : Engine), e.Keeps (f x e))
    (hf : ∀ x (e : Engine), e.Follows x (f x e)) : s.Passes t := by
  cases h
  exact State.engineEvent_passes _ _ (hk _ _) (hf _ _)

end Sys2Proof.Machine

namespace Sys2Proof.Machine

/-! ### The ten checks of a posted order (R11 to R16) -/

/-- The checks from the desk's count on, once kind, policy, drive and desk have been found. -/
def checksFrom (x : Front) (e : Engine) (raw : RawOrder) (kind : Kind) (drive : Drive) (desk : Desk)
    (f : OrderFields) : Except FinishCode OrderFields := do
  let pair := e.pairs.get drive.pair
  require (decide (e.deskHeld.getD raw.desk 0 < desk.limit)) .deskFull
  require (!f.pairCopy || pair.bound) .notPaired
  require (f.pairCopy || !kind.writes || !pair.bound || pair.mode == .detached) .notSingle
  require (rangeOk (x.record drive) f) .badRange
  require (bufferOk (x.record drive) f) .badBuffer
  require (standingOk kind raw) .badStanding
  require (!(f.drop && x.clock.phase == .closed)) .late
  match e.kindRefusal x f with
  | some code => .error code
  | none => .ok f

theorem require_of_true {ok : Bool} {code : FinishCode} (h : ok = true) : require ok code = .ok () := by
  rw [require, h]; rfl

theorem require_of_false {ok : Bool} {code : FinishCode} (h : ok = false) : require ok code = .error code := by
  rw [require, h]; rfl

/-- A check that passes hands on to the next ones. -/
theorem require_bind_of_true {α : Type} {ok : Bool} {code : FinishCode} {k : Unit → Except FinishCode α}
    (h : ok = true) : (require ok code >>= k) = k () := by
  rw [require_of_true h]; rfl

/-- A check that fails names the refusal. -/
theorem require_bind_of_false {α : Type} {ok : Bool} {code : FinishCode} {k : Unit → Except FinishCode α}
    (h : ok = false) : (require ok code >>= k) = .error code := by
  rw [require_of_false h]; rfl

/-- A sequence that passes has passed its first check. -/
theorem require_bind_ok {α : Type} {ok : Bool} {code : FinishCode} {k : Unit → Except FinishCode α} {a : α}
    (h : (require ok code >>= k) = .ok a) : ok = true ∧ k () = .ok a := by
  cases hok : ok with
  | true => exact ⟨rfl, by rwa [require_bind_of_true hok] at h⟩
  | false => rw [require_bind_of_false hok] at h; cases h

section
variable {x : Front} {e : Engine} {raw : RawOrder} {kind : Kind} {policy : Policy} {drive : Drive} {desk : Desk}

/-- Checks 1 to 3 passed: the rest are made on the fields as they are kept. -/
theorem checkOrder_eq_checksFrom (hkind : kindOf? raw.kind = some kind) (hpolicy : policyOf? raw.policy = some policy)
    (hdrive : Drive.ofNumber? raw.drive = some drive) (hpresent : (x.record drive).present = true)
    (hdesk : x.tables.desks[raw.desk]? = some desk) (henabled : desk.enabled = true) :
    checkOrder x e raw = checksFrom x e raw kind drive desk (raw.fields kind policy drive) := by
  simp only [checkOrder, hkind, hpolicy, hdrive, hpresent, hdesk, henabled, if_true]
  rfl

theorem checkOrder_badKind (h : kindOf? raw.kind = none ∨ policyOf? raw.policy = none) :
    checkOrder x e raw = .error .badKind := by
  cases hk : kindOf? raw.kind with
  | none => simp only [checkOrder, hk]; rfl
  | some k =>
    rcases h with h | hp
    · rw [h] at hk; cases hk
    · simp only [checkOrder, hk, hp]; rfl

theorem checkOrder_badDrive (hkind : kindOf? raw.kind = some kind) (hpolicy : policyOf? raw.policy = some policy)
    (h : ∀ d, Drive.ofNumber? raw.drive = some d → (x.record d).present = false) :
    checkOrder x e raw = .error .badDrive := by
  simp only [checkOrder, hkind, hpolicy]
  cases hd : Drive.ofNumber? raw.drive with
  | none => rfl
  | some d => simp only [h d hd]; rfl

theorem checkOrder_badDesk (hkind : kindOf? raw.kind = some kind) (hpolicy : policyOf? raw.policy = some policy)
    (hdrive : Drive.ofNumber? raw.drive = some drive) (hpresent : (x.record drive).present = true)
    (h : ∀ d, x.tables.desks[raw.desk]? = some d → d.enabled = false) :
    checkOrder x e raw = .error .badDesk := by
  simp only [checkOrder, hkind, hpolicy, hdrive, hpresent, if_true]
  cases hd : x.tables.desks[raw.desk]? with
  | none => rfl
  | some d => simp only [h d hd]; rfl

theorem checksFrom_eq_ok {f f' : OrderFields} (h : checksFrom x e raw kind drive desk f = .ok f') :
    f' = f ∧ e.deskHeld.getD raw.desk 0 < desk.limit ∧
      (!f.pairCopy || (e.pairs.get drive.pair).bound) = true ∧
      (f.pairCopy || !kind.writes || !(e.pairs.get drive.pair).bound ||
        (e.pairs.get drive.pair).mode == .detached) = true ∧
      rangeOk (x.record drive) f = true ∧ bufferOk (x.record drive) f = true ∧ standingOk kind raw = true ∧
      (!(f.drop && x.clock.phase == .closed)) = true ∧ e.kindRefusal x f = none := by
  obtain ⟨room, h⟩ := require_bind_ok h
  obtain ⟨paired, h⟩ := require_bind_ok h
  obtain ⟨single, h⟩ := require_bind_ok h
  obtain ⟨range, h⟩ := require_bind_ok h
  obtain ⟨buffer, h⟩ := require_bind_ok h
  obtain ⟨standing, h⟩ := require_bind_ok h
  obtain ⟨drop, h⟩ := require_bind_ok h
  split at h
  · cases h
  · rename_i hk
    cases h
    exact ⟨rfl, of_decide_eq_true room, paired, single, range, buffer, standing, drop, hk⟩

/-- What a posted order that passes the checks has been found to be. -/
theorem checkOrder_ok {f : OrderFields} (h : checkOrder x e raw = .ok f) :
    ∃ kind policy drive desk, kindOf? raw.kind = some kind ∧ policyOf? raw.policy = some policy ∧
      Drive.ofNumber? raw.drive = some drive ∧ (x.record drive).present = true ∧
      x.tables.desks[raw.desk]? = some desk ∧ desk.enabled = true ∧ f = raw.fields kind policy drive ∧
      checksFrom x e raw kind drive desk f = .ok f := by
  cases hkind : kindOf? raw.kind with
  | none => rw [checkOrder_badKind (.inl hkind)] at h; cases h
  | some kind =>
  cases hpolicy : policyOf? raw.policy with
  | none => rw [checkOrder_badKind (.inr hpolicy)] at h; cases h
  | some policy =>
  by_cases hd : ∀ d, Drive.ofNumber? raw.drive = some d → (x.record d).present = false
  · rw [checkOrder_badDrive hkind hpolicy hd] at h; cases h
  push Not at hd
  obtain ⟨drive, hdrive, hpresent⟩ := hd
  replace hpresent := Bool.eq_true_of_not_eq_false hpresent
  by_cases hs : ∀ d, x.tables.desks[raw.desk]? = some d → d.enabled = false
  · rw [checkOrder_badDesk hkind hpolicy hdrive hpresent hs] at h; cases h
  push Not at hs
  obtain ⟨desk, hdesk, henabled⟩ := hs
  replace henabled := Bool.eq_true_of_not_eq_false henabled
  rw [checkOrder_eq_checksFrom hkind hpolicy hdrive hpresent hdesk henabled] at h
  have hf := (checksFrom_eq_ok h).1
  exact ⟨kind, policy, drive, desk, rfl, rfl, hdrive, hpresent, hdesk, henabled, hf, hf ▸ h⟩

/-- A posted order that passes the checks passes the tenth (R16). -/
theorem kindRefusal_of_checkOrder {f : OrderFields} (h : checkOrder x e raw = .ok f) :
    e.kindRefusal x f = none := by
  obtain ⟨_, _, _, _, -, -, -, -, -, -, -, hc⟩ := checkOrder_ok h
  obtain ⟨-, -, -, -, -, -, -, -, hk⟩ := checksFrom_eq_ok hc
  exact hk
end

end Sys2Proof.Machine

namespace Sys2Proof.Machine

/-! ### The events in which orders join or leave the list, or the log is loaded -/

/-- The events that are more than an order's passing on: an acceptance, an order leaving the list, the entry to RUN,
and a reset (R18, R24, R165, R173). -/
inductive State.RosterEvent : Instr → State → State → Prop
  | accept (words : List Word) (s : State) (w : Word) (f : OrderFields) (hi : s.front.intake = .reading w)
      (hc : s.front.ctl = .run) :
      RosterEvent (.slotReadComplete words) s
        ({ s with engine := s.engine.accept s.front (actionOperand w) f }.answer w .taken)
  | leave (s : State) (slot : Nat) (o : Order) (ho : s.engine.order? slot = some o) (hf : o.finish.isSome = true) :
      RosterEvent .doneBitSet s (s.orderLeaves slot)
  | start (read : StartRead) (s : State) (k : Commit) (hc : s.front.ctl = .starting) (once : LogOnce k.log)
      (clear : LogClear k.pairs k.log) :
      RosterEvent (.startReadComplete read) s
        { s with front := s.front.enterRun k, engine := s.engine.enterRun (s.front.enterRun k) k }
  | reset (moved : Nat) (s : State) (base : BitVec 12) (line : Bool) (n : Nat) :
      RosterEvent (.reset moved) s (s.resetTo base line n)
  | resetLine (moved : Nat) (s : State) (base : BitVec 12) (line : Bool) (n : Nat) :
      RosterEvent (.resetLine moved) s (s.resetTo base line n)

/-- What a command makes of a state, as far as the list, the counts and the log go: it passes, or one of the events
happens between two states that pass. -/
def State.RosterStep (c : Instr) (s t : State) : Prop :=
  s.Passes t ∨ ∃ a b, s.Passes a ∧ State.RosterEvent c a b ∧ b.Passes t

theorem State.RosterStep.trans {c : Instr} {a s t : State} (h : a.Passes s) (k : State.RosterStep c s t) :
    State.RosterStep c a t := by
  rcases k with k | ⟨b, b', k, e, k'⟩
  · exact .inl (h.trans k)
  · exact .inr ⟨b, b', h.trans k, e, k'⟩

theorem State.decideStart_rosterStep (read : StartRead) (s : State) (hc : s.front.ctl = .starting) (area : AreaData)
    (image : List Word) : State.RosterStep (.startReadComplete read) s (s.decideStart area image) := by
  unfold State.decideStart
  split
  · exact .inl (s.failStart_passes _ _ (.inr hc))
  · rename_i k hk
    obtain ⟨once, clear⟩ := checkArea_ok hk
    exact .inr ⟨s, _, .refl s, .start read s k hc once clear, State.settle_passes _⟩

theorem State.startTables_rosterStep (read : StartRead) (s : State) (hc : s.front.ctl = .starting)
    (area : AreaData) : State.RosterStep (.startReadComplete read) s (s.startTables area) := by
  unfold State.startTables
  split
  · exact .inl (s.failStart_passes _ _ (.inr hc))
  · split
    · exact .inl ⟨.of_eq rfl rfl rfl rfl rfl, fun _ => .inl, fun _ => .inr (.inr hc)⟩
    · exact s.decideStart_rosterStep read hc _ _

theorem State.startRead_rosterStep (read : StartRead) (s : State) (hc : s.front.ctl = .starting)
    (f : State → State)
    (hf : ∀ s, s.front.ctl = .starting → State.RosterStep (.startReadComplete read) s (f s)) :
    State.RosterStep (.startReadComplete read) s (s.startRead f) := by
  unfold State.startRead
  split
  · exact .inl (.refl s)
  · rename_i s' a
    have only := State.await_only a
    exact .trans only.passes (hf s' (by rw [only.front, hc]))

theorem execStartReadComplete_rosterStep {read : StartRead} {s t : State}
    (h : execStartReadComplete read s = .next t) : State.RosterStep (.startReadComplete read) s t := by
  cases h
  split
  · rename_i hc _
    exact s.startRead_rosterStep _ hc _ fun s hc => s.startTables_rosterStep _ hc _
  · rename_i hc _
    exact s.startRead_rosterStep _ hc _ fun s hc => s.decideStart_rosterStep _ hc _ _
  · exact .inl (.refl s)

/-- A DETACH that is not refused finds every entry of its pair good on the drive's side (R16). -/
theorem Engine.good_of_kindRefusal {x : Front} {e : Engine} {f : OrderFields} (h : e.kindRefusal x f = none)
    (hk : f.kind = .detach) : ∀ l ∈ e.log, l.pair = f.drive.pair → l.good = f.drive.side := by
  intro l hl hp
  simp only [Engine.kindRefusal, hk, Engine.detachRefusal] at h
  split at h
  · cases h
  · rename_i hs
    simp only [Bool.or_eq_true, List.any_eq_true, Bool.and_eq_true, not_or, not_exists, not_and] at hs
    by_contra hg
    exact hs.1 l hl (by simp [hp]) (by simpa using hg)

theorem Engine.finishDirect_passes (x : Front) (e : Engine) (slot : Nat) (r : Results) (notify : Bool)
    (how : DoneHow) : e.Passes (e.finishDirect x slot r notify how) := .of_eq rfl rfl rfl rfl rfl

theorem State.decidePost_rosterStep (s : State) (w : Word) (words : List Word) (hi : s.front.intake = .reading w)
    (hc : s.front.ctl = .run) : State.RosterStep (.slotReadComplete words) s (s.decidePost w words) := by
  have closing (e : Engine) (h : s.engine.Passes e) : s.Passes ({ s with engine := e }.closing w) :=
    ⟨h, fun _ hw => (by cases hw), .inr⟩
  unfold State.decidePost
  dsimp only
  split
  · exact .inl (s.answer_passes _ _)
  · split
    · exact .inl (closing _ (Engine.finishDirect_passes _ _ _ _ _ _))
    · rename_i f hf
      split
      · have good := Engine.good_of_kindRefusal (kindRefusal_of_checkOrder hf)
        refine .inl (closing _ (Engine.Passes.trans ?_ (Engine.finishDirect_passes _ _ _ _ _ _)))
        exact ((Engine.Keeps.refl _).immediate f fun l hl hk => good hk l hl).passes
          ((Engine.Follows.refl _ _).immediate f)
      · exact .inr ⟨s, _, .refl s, .accept words s w f hi hc, .refl _⟩

theorem execSlotReadComplete_rosterStep {words : List Word} {s t : State}
    (h : execSlotReadComplete words s = .next t) : State.RosterStep (.slotReadComplete words) s t := by
  cases h
  split
  · rename_i w hi
    split
    · exact .inl (.refl s)
    · rename_i s' a
      have only := State.await_only a
      split
      · rename_i hc
        have k := s'.decidePost_rosterStep w words (by rw [only.front, hi]) hc
        rcases k with k | ⟨b, b', k, e, k'⟩
        · exact .inl ((only.passes.trans k).trans (State.settle_passes _))
        · exact .inr ⟨b, b', only.passes.trans k, e, k'.trans (State.settle_passes _)⟩
      · exact .inl (only.passes.trans (State.answer_passes _ _ _))
  all_goals exact .inl (.refl s)

/-- Where the slot holds no order whose finish has been decided, none leaves. -/
theorem Engine.leaveList_eq_self (x : Front) {e : Engine} {slot : Nat}
    (h : ∀ o, e.order? slot = some o → o.finish.isSome = false) : e.leaveList x slot = e := by
  unfold Engine.leaveList
  split
  · rfl
  · rename_i o ho
    simp [h o ho]

/-- With the DONE bit of a finish an order leaves the list, if at all. -/
theorem State.afterDone_rosterStep (s : State) (slot : Nat) (how : DoneHow) :
    State.RosterStep .doneBitSet s (s.afterDone slot how) := by
  have answered (o : ActionOutcome) : s.Passes (s.answerClosing o) := by
    unfold State.answerClosing
    split
    · exact s.answer_passes _ _
    · exact .refl s
  cases how with
  | leaves =>
    by_cases h : ∃ o, s.engine.order? slot = some o ∧ o.finish.isSome = true
    · obtain ⟨o, ho, hf⟩ := h
      exact .inr ⟨s, _, .refl s, .leave s slot o ho hf, .refl _⟩
    · refine .inl ?_
      dsimp only [State.afterDone, State.orderLeaves]
      rw [Engine.leaveList_eq_self s.front fun o ho => by simpa using fun hf => h ⟨o, ho, hf⟩]
      split
      · exact ⟨.of_eq rfl rfl rfl rfl rfl, fun _ hw => (by cases hw), .inr⟩
      · exact .refl s
  | stays => exact .inl (.refl s)
  | refused => exact .inl (answered _)
  | immediate => exact .inl (answered _)

theorem Engine.lateDone_passes (e : Engine) : e.Passes e.lateDone := by
  unfold Engine.lateDone
  split
  · exact .refl e
  · split <;> exact .of_eq rfl rfl rfl rfl rfl

theorem State.RosterStep.then {c : Instr} {a s t : State} (h : State.RosterStep c a s) (k : s.Passes t) :
    State.RosterStep c a t := by
  rcases h with h | ⟨b, b', h, e, h'⟩
  · exact .inl (h.trans k)
  · exact .inr ⟨b, b', h, e, h'.trans k⟩

theorem execDoneBitSet_rosterStep {s t : State} (h : execDoneBitSet s = .next t) :
    State.RosterStep .doneBitSet s t := by
  cases h
  split
  · rename_i slot notify how late s' a
    have done : s'.Passes { s' with front := s'.front.setDone slot notify } := ⟨.refl _, fun _ => .inl, .inr⟩
    have k := (State.afterDone_rosterStep { s' with front := s'.front.setDone slot notify } slot how).trans
      ((State.await_passes a).trans done)
    refine State.RosterStep.then k (State.Passes.trans ?_ (State.settle_passes _))
    split
    · exact .of_front (Engine.lateDone_passes _) rfl rfl
    · exact .refl _
  · exact .inl (.refl s)

/-- What a command makes of a state, as far as the list, the counts and the log go. -/
theorem exec_rosterStep {c : Instr} {s t : State} (h : exec c s = .next t) : State.RosterStep c s t := by
  cases c with
  | start => exact .inl (execStart_passes h)
  | startReadComplete read => exact execStartReadComplete_rosterStep h
  | stop => exact .inl (execStop_passes h)
  | abortAll => exact .inl (execAbortAll_passes h)
  | reset moved =>
    cases h
    split
    · exact .inr ⟨s, _, .refl s, .reset moved s _ _ _, .refl _⟩
    · exact .inl (.refl s)
  | clockLoad => exact .inl (execClockLoad_passes h)
  | presetReadComplete preset => exact .inl (execPresetReadComplete_passes h)
  | clockRun => exact .inl (execClockRun_passes h)
  | clockHalt => exact .inl (execClockHalt_passes h)
  | areaBaseWrite w => exact .inl (execAreaBaseWrite_passes h)
  | actionWrite w => exact .inl (execActionWrite_passes h)
  | doneClear high w => exact .inl (execDoneClear_passes h)
  | attentionClear w => exact .inl (execAttentionClear_passes h)
  | post => exact .inl (execPost_passes h)
  | slotReadComplete words => exact execSlotReadComplete_rosterStep h
  | withdraw => exact .inl (execWithdraw_passes h)
  | repost => exact .inl (execRepost_passes h)
  | surveyOnce => exact .inl (execSurveyOnce_passes h)
  | surveyLoop => exact .inl (execSurveyLoop_passes h)
  | surveyStop => exact .inl (execSurveyStop_passes h)
  | badAction => exact .inl (execBadAction_passes h)
  | resetLine moved =>
    cases h
    exact .inr ⟨s, _, .refl s, .resetLine moved s _ _ _, .refl _⟩
  | resetLineRelease => exact .inl (execResetLineRelease_passes h)
  | busGrant => exact .inl (execBusGrant_passes h)
  | busErrorRecord word => exact .inl (execBusErrorRecord_passes h)
  | memoryError c => exact .inl (execMemoryError_passes h)
  | bufferCopyComplete c => exact .inl (execBufferCopyComplete_passes h)
  | bufferFetchComplete c data => exact .inl (execBufferFetchComplete_passes h)
  | doneBitSet => exact execDoneBitSet_rosterStep h
  | driveAttention d => exact .inl (execDriveAttention_passes h)
  | surveyDone => exact .inl (execSurveyDone_passes h)
  | configError => exact .inl (execConfigError_passes h)
  | ageTick => exact .inl (execAgeTick_passes h)
  | headUnloadExpiry d => exact .inl (State.eventRow_passes h (fun _ e => (Engine.Keeps.refl e).unloadExpiry d)
      fun _ e => (Engine.Follows.refl _ e).unloadExpiry d)
  | unloadTouchEnd c => exact .inl (execUnloadTouchEnd_passes h)
  | surveyWaitExpiry => exact .inl (execSurveyWaitExpiry_passes h)
  | roundTick => exact .inl (execRoundTick_passes h)
  | editionCount => exact .inl (execEditionCount_passes h)
  | claim c => exact .inl (State.eventRow_passes h (fun _ e => (Engine.Keeps.refl e).takeClaim c)
      fun _ e => (Engine.Follows.refl _ e).takeClaim c)
  | stepTimeEnd c trk0 => exact .inl (execStepTimeEnd_passes h)
  | settleEnd c => exact .inl (State.eventRow_passes h (fun _ e => (Engine.Keeps.refl e).settleEnd c)
      fun _ e => (Engine.Follows.refl _ e).settleEnd c)
  | headLoadEnd c => exact .inl (State.eventRow_passes h (fun _ e => (Engine.Keeps.refl e).loadEnd c)
      fun _ e => (Engine.Follows.refl _ e).loadEnd c)
  | idFieldRead c field => exact .inl (State.eventRow_passes h (fun _ e => (Engine.Keeps.refl e).idField c field)
      fun _ e => (Engine.Follows.refl _ e).idField c field)
  | dataFieldRead c field => exact .inl (State.eventRow_passes h (fun _ e => (Engine.Keeps.refl e).dataField c field)
      fun _ e => (Engine.Follows.refl _ e).dataField c field)
  | dataFieldWritten c => exact .inl (State.eventRow_passes h (fun _ e => (Engine.Keeps.refl e).dataWritten c)
      fun _ e => (Engine.Follows.refl _ e).dataWritten c)
  | passAcross c => exact .inl (State.eventRow_passes h (fun _ e => (Engine.Keeps.refl e).passAcross c)
      fun _ e => (Engine.Follows.refl _ e).passAcross c)
  | searchTimeout c sector => exact .inl (State.eventRow_passes h
      (fun _ e => (Engine.Keeps.refl e).searchTimeout c sector)
      fun _ e => (Engine.Follows.refl _ e).searchTimeout c sector)
  | indexPulse c elapsed => exact .inl (State.eventRow_passes h
      (fun _ e => (Engine.Keeps.refl e).indexPulse c elapsed)
      fun _ e => (Engine.Follows.refl _ e).indexPulse c elapsed)
  | noIndexTimeout c => exact .inl (State.eventRow_passes h (fun _ e => (Engine.Keeps.refl e).noIndex c)
      fun _ e => (Engine.Follows.refl _ e).noIndex c)
  | readySample d lines => exact .inl (execReadySample_passes h)
  | surveyStepTimeout c => exact .inl (State.eventRow_passes h (fun _ e => (Engine.Keeps.refl e).surveyTimeout c)
      fun _ e => (Engine.Follows.refl _ e).surveyTimeout c)
  | nominalFinalFillEnd c => exact .inl (State.eventRow_passes h (fun _ e => (Engine.Keeps.refl e).finalFillEnd c)
      fun _ e => (Engine.Follows.refl _ e).finalFillEnd c)

/-- A step takes the command at the front of the queue, or idles. -/
theorem step_rosterStep {s t : State} (h : step s = .next t) :
    s.Passes t ∨ ∃ c, State.RosterStep c s t := by
  unfold step at h
  split at h
  · cases h
    exact .inl (.refl s)
  · rename_i c rest _
    refine .inr ⟨c, State.RosterStep.trans (s := { s with pending := rest }) ?_ (exec_rosterStep h)⟩
    exact ⟨.refl _, fun _ => .inl, .inr⟩

end Sys2Proof.Machine

namespace Sys2Proof.Machine

/-! ### The held counts at an acceptance, when an order leaves, and on entering RUN (R6, R143) -/

theorem Engine.drive_setDrive_eq (e : Engine) (d d' : Drive) (k : Knowledge) :
    (e.setDrive d k).drive d' = if d' = d then k else e.drive d' := by
  split
  · rename_i h
    rw [h, Engine.drive_setDrive]
  · rename_i h
    exact e.drive_setDrive_of_ne k h

theorem Engine.writeStatus_drive (e : Engine) (x : Front) (d d' : Drive) (n : Option Notice) :
    (e.writeStatus x d n).drive d' = e.drive d' := rfl

theorem Engine.writeDesk_drive (e : Engine) (x : Front) (k : Nat) (d : Drive) :
    (e.writeDesk x k).drive d = e.drive d := rfl

theorem Engine.updDrive_drive (x : Front) (e : Engine) (d d' : Drive) (f : Knowledge → Knowledge) :
    (e.updDrive x d f).drive d' = if d' = d then x.relatch d (f (e.drive d)) else e.drive d' := by
  unfold Engine.updDrive
  dsimp only
  split <;> exact e.drive_setDrive_eq d d' _

theorem Engine.countDrive_count (x : Front) (e : Engine) (f : OrderFields) (g : Nat → Nat) (d d' : Drive) :
    ((e.countDrive x f g d).drive d').heldCount =
      if d' = d ∧ f.covers d = true then g (e.drive d').heldCount else (e.drive d').heldCount := by
  unfold Engine.countDrive
  split
  · rename_i hc
    rw [Engine.updDrive_drive]
    by_cases hd : d' = d
    · subst hd
      simp [hc, Front.relatch]
    · simp [hd]
  · simp [*]

/-- Each drive that the order covers has its held count changed, once (R6). -/
theorem Engine.writeHeld_count (x : Front) (e : Engine) (f : OrderFields) (g : Nat → Nat) (d : Drive) :
    ((e.writeHeld x f g).drive d).heldCount =
      if f.covers d = true then g (e.drive d).heldCount else (e.drive d).heldCount := by
  have start (d : Drive) : ((({ e with deskHeld := e.deskHeld.set f.desk (g (e.deskHeld.getD f.desk 0)) } :
      Engine).writeDesk x f.desk).writeTotal x).drive d = e.drive d := rfl
  simp only [Engine.writeHeld, Drive.all, List.foldl_cons, List.foldl_nil, Engine.countDrive_count, start]
  obtain ⟨c, p⟩ := d
  cases c <;> cases p <;> simp

/-- Beside the counts nothing of the list or the log changes. -/
theorem Engine.writeHeld_keeps (x : Front) (e : Engine) (f : OrderFields) (g : Nat → Nat) :
    ({ e with deskHeld := e.deskHeld.set f.desk (g (e.deskHeld.getD f.desk 0)) } : Engine).Keeps
      (e.writeHeld x f g) :=
  Engine.Keeps.foldl _ _ (fun _ d h => h.countDrive f g d) (((Engine.Keeps.refl _).writeDesk f.desk).writeTotal)

theorem Engine.writeHeld_deskHeld (x : Front) (e : Engine) (f : OrderFields) (g : Nat → Nat) :
    (e.writeHeld x f g).deskHeld = e.deskHeld.set f.desk (g (e.deskHeld.getD f.desk 0)) :=
  (e.writeHeld_keeps x f g).desks

/-- A count of a desk, when another count has been set. -/
theorem List.getD_set_eq {l : List Nat} (i k v : Nat) (h : k < l.length) :
    (l.set i v).getD k 0 = if k = i then v else l.getD k 0 := by
  rw [List.getD_eq_getElem?_getD, List.getElem?_set, List.getD_eq_getElem?_getD]
  by_cases hk : i = k
  · subst hk; simp [h]
  · simp [hk, Ne.symm hk]

theorem Engine.enterRun_keeps (x : Front) (e : Engine) (k : Commit) :
    ∃ e0 : Engine, e0.held = e.held ∧ e0.log = k.log ∧ e0.pairs = k.pairs ∧ e0.deskHeld = List.replicate 8 0 ∧
      e0.Keeps (e.enterRun x k) := by
  refine ⟨{ e with pairs := k.pairs, log := k.log, deskHeld := List.replicate 8 0 }, rfl, rfl, rfl, rfl, ?_⟩
  refine .foldl _ _ (fun _ d h => h.writeStatus _ _) (.foldl _ _ (fun _ d h => h.writeDesk _) ?_)
  refine Engine.Keeps.headerWrite ?_ _ _
  refine .foldl _ _ (fun _ d h => h.setDrive _ _) ?_
  exact (Engine.Keeps.refl _).same rfl rfl rfl rfl rfl rfl

theorem Knowledge.atStart_heldCount (x : Front) (d : Drive) (k : Knowledge) : (k.atStart x d).heldCount = 0 := by
  unfold Knowledge.atStart
  split <;> rfl

/-- Operations that leave the drives' records leave them when done one after another. -/
theorem Engine.foldl_drive {α : Type} {f : Engine → α → Engine} {d : Drive}
    (h : ∀ e a, (f e a).drive d = e.drive d) (l : List α) (e : Engine) : (l.foldl f e).drive d = e.drive d := by
  induction l generalizing e with
  | nil => rfl
  | cons a l ih => rw [List.foldl_cons, ih, h]

/-- On entering RUN the held counts are cleared (R143). -/
theorem Engine.enterRun_count (x : Front) (e : Engine) (k : Commit) (d : Drive) :
    ((e.enterRun x k).drive d).heldCount = 0 := by
  have started (e0 : Engine) : ((Drive.all.foldl
      (fun (e : Engine) d => e.setDrive d ((e.drive d).atStart x d)) e0).drive
      d).heldCount = 0 := by
    simp only [Drive.all, List.foldl_cons, List.foldl_nil, Engine.drive_setDrive_eq]
    obtain ⟨c, p⟩ := d
    cases c <;> cases p <;> simp [Knowledge.atStart_heldCount]
  unfold Engine.enterRun
  dsimp only
  rw [Engine.foldl_drive fun e d' => e.writeStatus_drive x d' d none,
    Engine.foldl_drive fun e d' => e.writeDesk_drive x d' d]
  exact started _

/-! ### The held-order list at an acceptance and when an order leaves (R4) -/

theorem Engine.accept_keeps (x : Front) (e : Engine) (slot : Nat) (f : OrderFields) :
    ∃ e0 : Engine, e0.held = e.held ++ [Order.accepted e slot f] ∧ e0.log = e.log ∧ e0.pairs = e.pairs ∧
      e0.deskHeld = e.deskHeld.set f.desk (e.deskHeld.getD f.desk 0 + 1) ∧ e0.Keeps (e.accept x slot f) := by
  unfold Engine.accept
  refine ⟨_, ?_, ?_, ?_, ?_, Engine.writeHeld_keeps x _ f _⟩ <;> rfl

theorem Engine.accept_count (x : Front) (e : Engine) (slot : Nat) (f : OrderFields) (d : Drive) :
    ((e.accept x slot f).drive d).heldCount = (e.drive d).heldCount + if f.covers d then 1 else 0 := by
  rw [Engine.accept, Engine.writeHeld_count]
  split <;> simp_all <;> rfl

/-- What leaves when an order with its finish decided is in the slot. -/
theorem Engine.leaveList_eq (x : Front) {e : Engine} {slot : Nat} {o : Order} (ho : e.order? slot = some o)
    (hf : o.finish.isSome = true) : e.leaveList x slot =
      Engine.writeHeld x ({ e with held := e.held.filter fun o => !(o.slot == slot) }.dropClaims slot) o.fields
        fun n => n - 1 := by
  simp only [Engine.leaveList, ho, hf, if_true]

theorem Engine.leaveList_keeps (x : Front) {e : Engine} {slot : Nat} {o : Order} (ho : e.order? slot = some o)
    (hf : o.finish.isSome = true) :
    ∃ e0 : Engine, (e0.held = e.held.filter fun o => !(o.slot == slot)) ∧ e0.log = e.log ∧ e0.pairs = e.pairs ∧
      e0.deskHeld = e.deskHeld.set o.fields.desk (e.deskHeld.getD o.fields.desk 0 - 1) ∧
      e0.Keeps (e.leaveList x slot) := by
  rw [Engine.leaveList_eq x ho hf]
  refine ⟨_, ?_, ?_, ?_, ?_, Engine.writeHeld_keeps x _ _ _⟩ <;> rfl

theorem Engine.leaveList_count (x : Front) {e : Engine} {slot : Nat} {o : Order} (ho : e.order? slot = some o)
    (hf : o.finish.isSome = true) (d : Drive) : ((e.leaveList x slot).drive d).heldCount =
      (e.drive d).heldCount - if o.fields.covers d then 1 else 0 := by
  rw [Engine.leaveList_eq x ho hf, Engine.writeHeld_count]
  by_cases hc : o.fields.covers d = true
  · simp only [hc, if_true]; rfl
  · simp only [hc]; rfl

/-- The engine of a state whose order leaves, but for the notice of the last count write. -/
theorem State.orderLeaves_engine (s : State) (slot : Nat) :
    (s.engine.leaveList s.front slot).Passes (s.orderLeaves slot).engine := by
  unfold State.orderLeaves
  dsimp only
  split
  · exact .of_eq rfl rfl rfl rfl rfl
  · exact .refl _

end Sys2Proof.Machine

namespace Sys2Proof.Machine

/-! ### Each slot is held at most once (R4, R10) -/

/-- The invariant from the list of the slots held, in any order. -/
theorem State.HeldOnce.of_perm {t : State} {slots : List Nat} (p : (t.engine.held.map Order.slot).Perm slots)
    (once : slots.Nodup) (lt : ∀ n ∈ slots, n < 32)
    (reading : ∀ w, t.front.intake = .reading w → actionOperand w < 32 ∧ actionOperand w ∉ slots) : t.HeldOnce := by
  have mem {o : Order} (ho : o ∈ t.engine.held) : o.slot ∈ slots := p.mem_iff.mp (List.mem_map_of_mem ho)
  refine ⟨p.nodup_iff.mpr once, fun o ho => lt _ (mem ho), fun w hw => ?_⟩
  exact ⟨(reading w hw).1, fun o ho hs => (reading w hw).2 (hs ▸ mem ho)⟩

/-- A POST is in hand only for a slot that is not among those held. -/
theorem State.HeldOnce.notMem {s : State} (k : s.HeldOnce) {w : Word} (hw : s.front.intake = .reading w) :
    actionOperand w ∉ s.engine.held.map Order.slot := by
  simpa using (k.reading w hw).2

theorem State.HeldOnce.lt {s : State} (k : s.HeldOnce) : ∀ n ∈ s.engine.held.map Order.slot, n < 32 := by
  simpa using k.slots

theorem State.Passes.heldOnce {s t : State} (h : s.Passes t) (k : s.HeldOnce) : t.HeldOnce := by
  refine .of_perm h.engine.slots k.once k.lt fun w hw => ?_
  rcases h.reading w hw with hr | ⟨hlt, hne⟩
  · exact ⟨(k.reading w hr).1, k.notMem hr⟩
  · exact ⟨hlt, by simpa using hne⟩

theorem Order.slots_of_keys (l : List Order) : (l.map Order.key).map Prod.fst = l.map Order.slot := by
  simp [Function.comp_def, Order.key]

/-- The slots held after an acceptance. -/
theorem Engine.accept_slots (x : Front) (e : Engine) (slot : Nat) (f : OrderFields) :
    ((e.accept x slot f).held.map Order.slot).Perm (e.held.map Order.slot ++ [slot]) := by
  obtain ⟨e0, hheld, -, -, -, keeps⟩ := Engine.accept_keeps x e slot f
  have := keeps.held.map Prod.fst
  rwa [Order.slots_of_keys, Order.slots_of_keys, hheld, List.map_append] at this

/-- The orders held when one has left. -/
theorem Engine.leaveList_keys (x : Front) {e : Engine} {slot : Nat} {o : Order} (ho : e.order? slot = some o)
    (hf : o.finish.isSome = true) : ((e.leaveList x slot).held.map Order.key).Perm
      ((e.held.filter fun o => !(o.slot == slot)).map Order.key) := by
  obtain ⟨e0, hheld, -, -, -, keeps⟩ := Engine.leaveList_keeps x ho hf
  exact hheld ▸ keeps.held

theorem State.orderLeaves_intake (s : State) (slot : Nat) (w : Word)
    (h : (s.orderLeaves slot).front.intake = .reading w) : s.front.intake = .reading w := by
  unfold State.orderLeaves at h
  dsimp only at h
  split at h
  · cases h
  · exact h

theorem State.orderLeaves_ctl (s : State) (slot : Nat) : (s.orderLeaves slot).front.ctl = s.front.ctl := by
  unfold State.orderLeaves
  dsimp only
  split <;> rfl

theorem State.orderLeaves_keys (s : State) {slot : Nat} {o : Order} (ho : s.engine.order? slot = some o)
    (hf : o.finish.isSome = true) : ((s.orderLeaves slot).engine.held.map Order.key).Perm
      ((s.engine.held.filter fun o => !(o.slot == slot)).map Order.key) :=
  (s.orderLeaves_engine slot).held.trans (Engine.leaveList_keys s.front ho hf)

/-- Entering RUN changes no order's key. -/
theorem Engine.enterRun_keys (x : Front) (e : Engine) (k : Commit) :
    ((e.enterRun x k).held.map Order.key).Perm (e.held.map Order.key) := by
  obtain ⟨e0, hheld, -, -, -, keeps⟩ := Engine.enterRun_keeps x e k
  have held := keeps.held
  rwa [hheld] at held

theorem State.RosterEvent.heldOnce {c : Instr} {s t : State} (h : State.RosterEvent c s t) (k : s.HeldOnce) :
    t.HeldOnce := by
  cases h with
  | accept words _ w f hi hc =>
    refine .of_perm (Engine.accept_slots s.front s.engine (actionOperand w) f) ?_ ?_ nofun
    · refine List.nodup_append.mpr ⟨k.once, by simp, ?_⟩
      rintro a ha b hb rfl
      exact k.notMem hi (List.mem_singleton.mp hb ▸ ha)
    · intro n hn
      rcases List.mem_append.mp hn with hn | hn
      · exact k.lt n hn
      · exact List.mem_singleton.mp hn ▸ (k.reading w hi).1
  | leave _ slot o ho hf =>
    have keys := (s.orderLeaves_keys ho hf).map Prod.fst
    rw [Order.slots_of_keys, Order.slots_of_keys] at keys
    have sub : ((s.engine.held.filter fun o => !(o.slot == slot)).map Order.slot).Sublist
        (s.engine.held.map Order.slot) := List.filter_sublist.map _
    refine .of_perm keys (sub.nodup k.once) (fun n hn => k.lt n (sub.subset hn)) fun w hw => ?_
    have hr := s.orderLeaves_intake slot w hw
    exact ⟨(k.reading w hr).1, fun hm => k.notMem hr (sub.subset hm)⟩
  | start read _ r hc once clear =>
    have keys := (Engine.enterRun_keys (s.front.enterRun r) s.engine r).map Prod.fst
    rw [Order.slots_of_keys, Order.slots_of_keys] at keys
    exact .of_perm keys k.once k.lt fun w hw => ⟨(k.reading w hw).1, k.notMem hw⟩
  | reset moved _ base line n => exact .of_perm (.refl []) .nil nofun nofun
  | resetLine moved _ base line n => exact .of_perm (.refl []) .nil nofun nofun

/-- What passages and events keep, a step keeps. -/
theorem State.Kept.of_events {P : State → Prop} (passes : ∀ {s t : State}, s.Passes t → P s → P t)
    (event : ∀ {c : Instr} {s t : State}, State.RosterEvent c s t → P s → P t) {s t : State}
    (h : step s = .next t) (hs : P s) : P t := by
  rcases step_rosterStep h with k | ⟨c, k | ⟨a, b, ha, e, hb⟩⟩
  · exact passes k hs
  · exact passes k hs
  · exact passes hb (event e (passes ha hs))

/-- Settles O6: every step is a passage, or one event of the list between two passages, and each keeps it. -/
theorem eachSlotIsHeldOnce : Obligations.EachSlotIsHeldOnce := fun _ _ k h =>
  State.Kept.of_events (P := State.HeldOnce) State.Passes.heldOnce State.RosterEvent.heldOnce h k

/-! ### The split log keeps its form (R58, R59) -/

theorem Engine.LogForm.leave (s : State) {slot : Nat} {o : Order} (ho : s.engine.order? slot = some o)
    (hf : o.finish.isSome = true) :
    (LogOnce s.engine.log → LogOnce (s.orderLeaves slot).engine.log) ∧
    (LogClear s.engine.pairs s.engine.log →
      LogClear (s.orderLeaves slot).engine.pairs (s.orderLeaves slot).engine.log) := by
  obtain ⟨e0, -, hlog, hpairs, -, keeps⟩ := Engine.leaveList_keeps s.front ho hf
  have p := s.orderLeaves_engine slot
  exact ⟨fun h => p.once (keeps.log (hlog ▸ h)), fun h => p.clear (keeps.clear (hlog ▸ hpairs ▸ h))⟩

theorem State.RosterEvent.logForm {c : Instr} {s t : State} (h : State.RosterEvent c s t) :
    (LogOnce s.engine.log → LogOnce t.engine.log) ∧
    (LogClear s.engine.pairs s.engine.log → LogClear t.engine.pairs t.engine.log) := by
  cases h with
  | accept words _ w f hi hc =>
    obtain ⟨e0, -, hlog, hpairs, -, keeps⟩ := Engine.accept_keeps s.front s.engine (actionOperand w) f
    exact ⟨fun h => keeps.log (hlog ▸ h), fun h => keeps.clear (hlog ▸ hpairs ▸ h)⟩
  | leave _ slot o ho hf => exact Engine.LogForm.leave s ho hf
  | start read _ k hc once clear =>
    obtain ⟨e0, -, hlog, hpairs, -, keeps⟩ := Engine.enterRun_keeps (s.front.enterRun k) s.engine k
    exact ⟨fun _ => keeps.log (hlog ▸ once), fun _ => keeps.clear (hlog ▸ hpairs ▸ clear)⟩
  | reset moved _ base line n => exact ⟨fun _ => .nil, fun _ => nofun⟩
  | resetLine moved _ base line n => exact ⟨fun _ => .nil, fun _ => nofun⟩

/-- Settles O7: START loads a log that the checks of its image have passed, and after that the log keeps its form. -/
theorem splitLogKeepsItsForm : Obligations.SplitLogKeepsItsForm := fun _ _ h =>
  ⟨State.Kept.of_events (P := fun s => LogOnce s.engine.log) (fun k => k.engine.once) (fun k => k.logForm.1) h,
    State.Kept.of_events (P := fun s => LogClear s.engine.pairs s.engine.log) (fun k => k.engine.clear)
      (fun k => k.logForm.2) h⟩

/-! ### The held counts (R6) -/

theorem State.Passes.counted {s t : State} (h : s.Passes t) (k : s.Counted) : t.Counted where
  length := h.engine.desks ▸ k.length
  desks n hn := by
    rw [h.engine.desks, k.desks n hn]
    exact (h.engine.countP fun key => key.2.desk == n).symm
  drives d := by
    rw [h.engine.counts, k.drives d]
    exact (h.engine.countP fun key => key.2.covers d).symm
  idle hc := (h.idle hc).elim id fun hs => h.engine.held_nil (k.idle hs)

/-- The counts from the orders held, in any order, by slot and fields. -/
theorem State.Counted.of_keys {t : State} {keys : List (Nat × OrderFields)}
    (p : (t.engine.held.map Order.key).Perm keys) (length : t.engine.deskHeld.length = 8)
    (desks : ∀ n < 8, t.engine.deskHeld.getD n 0 = keys.countP fun k => k.2.desk == n)
    (drives : ∀ d, (t.engine.drive d).heldCount = keys.countP fun k => k.2.covers d)
    (idle : t.front.ctl = .config ∨ t.front.ctl = .starting → t.engine.held = []) : t.Counted := by
  have count (q : Nat × OrderFields → Bool) : (t.engine.held.countP fun o => q o.key) = keys.countP q := by
    rw [← p.countP_eq q, List.countP_map]
    rfl
  exact ⟨length, fun n hn => (desks n hn).trans (count fun k => k.2.desk == n).symm,
    fun d => (drives d).trans (count fun k => k.2.covers d).symm, idle⟩

theorem State.Counted.desks_keys {s : State} (k : s.Counted) {n : Nat} (hn : n < 8) :
    s.engine.deskHeld.getD n 0 = (s.engine.held.map Order.key).countP fun k => k.2.desk == n := by
  rw [k.desks n hn, List.countP_map]
  rfl

theorem State.Counted.drives_keys {s : State} (k : s.Counted) (d : Drive) :
    (s.engine.drive d).heldCount = (s.engine.held.map Order.key).countP fun k => k.2.covers d := by
  rw [k.drives d, List.countP_map]
  rfl

/-- Where each slot is held once, the list is an order of it before the orders of the other slots. -/
theorem perm_cons_filter_slot {l : List Order} {o : Order} (hn : (l.map Order.slot).Nodup) (ho : o ∈ l) :
    l.Perm (o :: l.filter fun o' => !(o'.slot == o.slot)) := by
  induction l with
  | nil => cases ho
  | cons a l ih =>
    obtain ⟨ha, hl⟩ := List.nodup_cons.mp hn
    rcases List.mem_cons.mp ho with rfl | ho
    · have others : (l.filter fun o' => !(o'.slot == o.slot)) = l :=
        List.filter_eq_self.mpr fun b hb => by
          simpa using fun h : b.slot = o.slot => ha (h ▸ List.mem_map_of_mem hb)
      simp [others]
    · have hne : a.slot ≠ o.slot := fun h => ha (h ▸ List.mem_map_of_mem ho)
      rw [List.filter_cons_of_pos (by simpa using hne)]
      exact ((ih hl ho).cons a).trans (.swap _ _ _)

/-- How many orders of a kind there are beside the one that leaves. -/
theorem countP_keys_leave {l : List Order} {o : Order} (hn : (l.map Order.slot).Nodup) (ho : o ∈ l)
    (q : Nat × OrderFields → Bool) : ((l.filter fun o' => !(o'.slot == o.slot)).map Order.key).countP q =
      (l.map Order.key).countP q - if q o.key then 1 else 0 := by
  rw [((perm_cons_filter_slot hn ho).map Order.key).countP_eq q, List.map_cons, List.countP_cons, Nat.add_sub_cancel]

theorem Engine.order?_mem {e : Engine} {slot : Nat} {o : Order} (h : e.order? slot = some o) :
    o ∈ e.held ∧ o.slot = slot :=
  ⟨List.mem_of_find?_eq_some h, by simpa using List.find?_some h⟩

theorem State.RosterEvent.counted {c : Instr} {s t : State} (h : State.RosterEvent c s t) (once : s.HeldOnce)
    (k : s.Counted) : t.Counted := by
  have cleared : ∀ n < 8, (List.replicate 8 0).getD n 0 = 0 := by decide
  have reset (d : Drive) : ((Engine.resetWith (s.engine.chan .A).buffers (s.engine.chan .B).buffers
      s.engine.freeIndex).drive d).heldCount = 0 := by
    obtain ⟨c, p⟩ := d
    cases c <;> cases p <;> rfl
  cases h with
  | accept words _ w f hi hc =>
    obtain ⟨e0, hheld, -, -, hdesk, keeps⟩ := Engine.accept_keeps s.front s.engine (actionOperand w) f
    have keys := keeps.held
    rw [hheld, List.map_append] at keys
    have desks : (s.engine.accept s.front (actionOperand w) f).deskHeld =
        s.engine.deskHeld.set f.desk (s.engine.deskHeld.getD f.desk 0 + 1) := keeps.desks.trans hdesk
    refine .of_keys keys ?_ (fun n hn => ?_) (fun d => ?_) fun h => ?_
    · exact (congrArg List.length desks).trans (List.length_set.trans k.length)
    · refine (congrArg (·.getD n 0) desks).trans ?_
      rw [List.getD_set_eq _ _ _ (k.length ▸ hn), List.countP_append, ← k.desks_keys hn]
      by_cases h : f.desk = n
      · simp [h, Order.key, Order.accepted]
      · simp [h, Ne.symm h, Order.key, Order.accepted]
    · refine (s.engine.accept_count s.front (actionOperand w) f d).trans ?_
      rw [List.countP_append, ← k.drives_keys d]
      simp [Order.key, Order.accepted]
    · exact absurd (hc ▸ h : Ctl.run = .config ∨ Ctl.run = .starting) (by decide)
  | leave _ slot o ho hf =>
    obtain ⟨hm, hs⟩ := Engine.order?_mem ho
    have p := s.orderLeaves_engine slot
    obtain ⟨e0, -, -, -, hdesk, keeps⟩ := Engine.leaveList_keeps s.front ho hf
    have desks : (s.orderLeaves slot).engine.deskHeld =
        s.engine.deskHeld.set o.fields.desk (s.engine.deskHeld.getD o.fields.desk 0 - 1) :=
      p.desks.trans (keeps.desks.trans hdesk)
    have keys := s.orderLeaves_keys ho hf
    subst hs
    refine .of_keys keys ?_ (fun n hn => ?_) (fun d => ?_) fun h => ?_
    · rw [desks, List.length_set, k.length]
    · rw [desks, List.getD_set_eq _ _ _ (k.length ▸ hn), countP_keys_leave once.once hm, ← k.desks_keys hn]
      by_cases h : o.fields.desk = n
      · simp [h, Order.key]
      · simp [h, Ne.symm h, Order.key]
    · rw [p.counts, Engine.leaveList_count s.front ho hf, countP_keys_leave once.once hm, ← k.drives_keys d]
      rfl
    · have := k.idle (s.orderLeaves_ctl o.slot ▸ h)
      rw [this] at hm
      cases hm
  | start read _ r hc _ _ =>
    obtain ⟨e0, -, -, -, hdesk, keeps⟩ := Engine.enterRun_keeps (s.front.enterRun r) s.engine r
    have keys := Engine.enterRun_keys (s.front.enterRun r) s.engine r
    have desks : (s.engine.enterRun (s.front.enterRun r) r).deskHeld = List.replicate 8 0 := keeps.desks.trans hdesk
    rw [k.idle (.inr hc)] at keys
    refine .of_keys keys ?_ (fun n hn => ?_) (fun d => ?_) fun h => ?_
    · exact congrArg List.length desks
    · exact (congrArg (·.getD n 0) desks).trans (cleared n hn)
    · exact Engine.enterRun_count _ _ _ d
    · exact List.map_eq_nil_iff.mp keys.eq_nil
  | reset moved _ base line n => exact .of_keys (.refl []) rfl cleared reset fun _ => rfl
  | resetLine moved _ base line n => exact .of_keys (.refl []) rfl cleared reset fun _ => rfl

/-- Settles O9: each event of the list changes the counts as it changes the list; that an order leaves once needs
that its slot is held once. -/
theorem heldCountsFollowTheOrders : Obligations.HeldCountsFollowTheOrders := fun _ _ once k h =>
  (State.Kept.of_events (P := fun s => s.HeldOnce ∧ s.Counted) (fun k h => ⟨k.heldOnce h.1, k.counted h.2⟩)
    (fun k h => ⟨k.heldOnce h.1, k.counted h.1 h.2⟩) h ⟨once, k⟩).2

/-! ### An order leaves by its DONE bit or a reset alone (R3, R24) -/

/-- The order is still held, with its fields. -/
def State.stays (t : State) (o : Order) : Prop := ∃ o' ∈ t.engine.held, o'.slot = o.slot ∧ o'.fields = o.fields

theorem State.stays_iff (t : State) (o : Order) : t.stays o ↔ o.key ∈ t.engine.held.map Order.key := by
  simp [State.stays, Order.key]

theorem State.Passes.stays {s t : State} (h : s.Passes t) (o : Order) : t.stays o ↔ s.stays o := by
  rw [t.stays_iff, s.stays_iff, h.engine.held.mem_iff]

theorem State.stays_self {s : State} {o : Order} (ho : o ∈ s.engine.held) : s.stays o := ⟨o, ho, rfl, rfl⟩

/-- Of the events of the list that no reset is, only a DONE bit removes an order. -/
theorem State.RosterEvent.stays {c : Instr} {s t : State} (h : State.RosterEvent c s t)
    (hr : ∀ moved, c ≠ .reset moved) (hl : ∀ moved, c ≠ .resetLine moved) (hd : c ≠ .doneBitSet) {o : Order}
    (ho : s.stays o) : t.stays o := by
  rw [State.stays_iff] at ho ⊢
  cases h with
  | accept words _ w f hi hc =>
    obtain ⟨e0, hheld, -, -, -, keeps⟩ := Engine.accept_keeps s.front s.engine (actionOperand w) f
    refine keeps.held.mem_iff.mpr ?_
    rw [hheld, List.map_append]
    exact List.mem_append_left _ ho
  | leave => exact absurd rfl hd
  | start read _ r => exact (Engine.enterRun_keys (s.front.enterRun r) s.engine r).mem_iff.mpr ho
  | reset moved => exact absurd rfl (hr moved)
  | resetLine moved => exact absurd rfl (hl moved)

theorem State.RosterStep.stays {c : Instr} {s t : State} (h : State.RosterStep c s t)
    (hr : ∀ moved, c ≠ .reset moved) (hl : ∀ moved, c ≠ .resetLine moved) (hd : c ≠ .doneBitSet) {o : Order}
    (ho : s.stays o) : t.stays o := by
  rcases h with h | ⟨a, b, ha, e, hb⟩
  · exact (h.stays o).mpr ho
  · exact (hb.stays o).mpr (e.stays hr hl hd ((ha.stays o).mpr ho))

theorem State.orderLeaves_stays (s : State) {slot : Nat} {o : Order} (ho : o ∈ s.engine.held)
    (h : o.slot = slot → ∀ o', s.engine.order? slot = some o' → o'.finish.isSome = false) :
    (s.orderLeaves slot).stays o := by
  rw [State.stays_iff]
  by_cases hl : ∃ o', s.engine.order? slot = some o' ∧ o'.finish.isSome = true
  · obtain ⟨o', ho', hf⟩ := hl
    have hne : o.slot ≠ slot := fun hs => by simp [h hs o' ho'] at hf
    refine (s.orderLeaves_keys ho' hf).mem_iff.mpr (List.mem_map_of_mem (List.mem_filter.mpr ⟨ho, ?_⟩))
    simpa using hne
  · refine (s.orderLeaves_engine slot).held.mem_iff.mpr ?_
    rw [Engine.leaveList_eq_self s.front fun o' ho' => by simpa using fun hf => hl ⟨o', ho', hf⟩]
    exact List.mem_map_of_mem ho

/-- Where each slot is held once, an order held is the one of its slot. -/
theorem Engine.order?_eq {e : Engine} (hn : (e.held.map Order.slot).Nodup) {o o' : Order} (ho : o ∈ e.held)
    (ho' : e.order? o.slot = some o') : o' = o := by
  obtain ⟨hm, hs⟩ := Engine.order?_mem ho'
  exact List.inj_on_of_nodup_map hn hm ho hs

/-- A DONE bit removes the order of its own slot, if its finish has been decided, and no other. -/
theorem State.afterDone_stays (s : State) (hn : (s.engine.held.map Order.slot).Nodup) (slot : Nat) (how : DoneHow)
    {o : Order} (ho : o ∈ s.engine.held) :
    (s.afterDone slot how).stays o ∨ (o.finish ≠ none ∧ slot = o.slot ∧ how = .leaves) := by
  have answered (a : ActionOutcome) : (s.answerClosing a).stays o := by
    unfold State.answerClosing
    split
    · exact ((s.answer_passes _ _).stays o).mpr (State.stays_self ho)
    · exact State.stays_self ho
  cases how with
  | leaves =>
    by_cases h : o.slot = slot ∧ o.finish ≠ none
    · exact .inr ⟨h.2, h.1.symm, rfl⟩
    · refine .inl (s.orderLeaves_stays ho fun hs o' ho' => ?_)
      have : o' = o := Engine.order?_eq hn ho (hs ▸ ho')
      simpa [this, hs] using h
  | stays => exact .inl (State.stays_self ho)
  | refused => exact .inl (answered _)
  | immediate => exact .inl (answered _)

theorem execDoneBitSet_stays {s t : State} (h : execDoneBitSet s = .next t)
    (hn : (s.engine.held.map Order.slot).Nodup) {o : Order} (ho : o ∈ s.engine.held) :
    t.stays o ∨ (o.finish ≠ none ∧ ∃ notify late s1,
      s.await Notice.isDoneBit = some (.doneBit o.slot notify .leaves late, s1)) := by
  cases h
  split
  · rename_i slot notify how late s' a
    have held : s'.engine.held = s.engine.held := by rw [(State.await_only a).engine]
    have told (u : State) : u.Passes (if late then { u with engine := u.engine.lateDone } else u) := by
      split
      · exact .of_front (Engine.lateDone_passes _) rfl rfl
      · exact .refl u
    rcases State.afterDone_stays { s' with front := s'.front.setDone slot notify } (held ▸ hn) slot how (held ▸ ho)
      with k | ⟨hf, rfl, rfl⟩
    · exact .inl ((((told _).trans (State.settle_passes _)).stays o).mpr k)
    · exact .inr ⟨hf, notify, late, s', a⟩
  · exact .inl (State.stays_self ho)

/-- Settles O13: every command but DONE_BIT_SET and the resets passes, or is an event that keeps the orders held;
a DONE bit removes the one order of its slot. -/
theorem ordersLeaveByTheirDoneBit : Obligations.OrdersLeaveByTheirDoneBit := by
  intro c s t h hr hl stays
  refine ⟨fun hd o ho => (exec_rosterStep h).stays hr hl hd (State.stays_self ho), ?_⟩
  rintro rfl hn o ho
  exact execDoneBitSet_stays h hn ho

end Sys2Proof.Machine

namespace Sys2Proof.Machine

/-! ### What each check of a posted order says (R11 to R15) -/

theorem kindOf?_eq_some (n : Nat) (kind : Kind) : kindOf? n = some kind ↔ kind.code = n := by
  constructor
  · intro h
    unfold kindOf? at h
    split at h <;> cases h <;> rfl
  · rintro rfl
    cases kind <;> rfl

theorem policyOf?_eq_none (n : Nat) : policyOf? n = none ↔ 2 < n := by
  match n with
  | 0 | 1 | 2 | _ + 3 => simp [policyOf?]

theorem Drive.ofNumber?_eq_some (n : Nat) (d : Drive) : Drive.ofNumber? n = some d ↔ d.number = n := by
  constructor
  · intro h
    unfold Drive.ofNumber? at h
    split at h <;> cases h <;> rfl
  · rintro rfl
    obtain ⟨c, p⟩ := d
    cases c <;> cases p <;> rfl

/-- Check 7 (R14). -/
theorem bufferOk_iff (r : DriveRecord) (f : OrderFields) : bufferOk r f = true ↔
    (f.kind = .read ∨ f.kind = .write → f.buffer % 2 = 0 ∧ f.buffer + f.count * r.size ≤ 0x100000) := by
  have hbytes : Config.hostBytes = 0x100000 := rfl
  rw [← hbytes]
  unfold bufferOk
  split
  · rename_i h
    simp [h]
  · rename_i h
    simp [h]

/-- Check 8 (R15). -/
theorem standingOk_iff (kind : Kind) (raw : RawOrder) : standingOk kind raw = true ↔
    (raw.standing = true →
      (kind = .read ∨ kind = .write ∨ kind = .check) ∧ raw.roundMask ≤ 63 ∧ raw.roundValue ≤ 63) := by
  unfold standingOk
  cases raw.standing <;> simp [or_assoc, and_assoc]

/-- The kinds that name a run of sectors. -/
def Kind.run (k : Kind) : Prop := k = .read ∨ k = .write ∨ k = .check ∨ k = .retire

/-- The run of sectors lies inside the geometry (R13). -/
theorem rangeOk_runOk_iff (r : DriveRecord) (f : OrderFields) : rangeOk.runOk r f = true ↔
    f.cylinder < r.cylinders ∧ f.surface < r.surfaces ∧ r.firstSector ≤ f.firstSector ∧
      f.firstSector < r.firstSector + r.sectors ∧ 1 ≤ f.count ∧ f.count ≤ 32 ∧
      f.start r + f.count - 1 < r.cylinders * r.surfaces * r.sectors := by
  simp [rangeOk.runOk, and_assoc]

/-- Check 6 (R13). -/
theorem rangeOk_iff (r : DriveRecord) (f : OrderFields) : rangeOk r f = true ↔
    (f.kind.run ∨ f.kind = .format ∨ f.kind = .seek → f.cylinder < r.cylinders) ∧
    (f.kind.run ∨ f.kind = .format → f.surface < r.surfaces) ∧
    (f.kind.run → r.firstSector ≤ f.firstSector ∧ f.firstSector < r.firstSector + r.sectors ∧
      1 ≤ f.count ∧ f.count ≤ 32 ∧ f.start r + f.count - 1 < r.cylinders * r.surfaces * r.sectors) := by
  unfold rangeOk Kind.run
  cases f.kind <;> simp [rangeOk_runOk_iff]

theorem Kind.writes_iff (k : Kind) : k.writes = true ↔ k = .write ∨ k = .format ∨ k = .retire := by
  cases k <;> simp [Kind.writes]

/-- Check 5 for an order of PAIR copy (R12). -/
theorem pairedOk_iff (pairCopy bound : Bool) : (!pairCopy || bound) = true ↔ (pairCopy = true → bound = true) := by
  cases pairCopy <;> simp

/-- Check 5 for a writing order of SINGLE copy (R12). -/
theorem singleOk_iff (pairCopy writes bound : Bool) (mode : PairMode) :
    (pairCopy || !writes || !bound || mode == .detached) = true ↔
      (pairCopy = false → writes = true → bound = false ∨ mode = .detached) := by
  cases pairCopy <;> cases writes <;> cases bound <;> simp

/-- Check 9 (R15). -/
theorem dropOk_iff (drop : Bool) (phase : Phase) :
    (!(drop && phase == .closed)) = true ↔ ¬(drop = true ∧ phase = .closed) := by
  cases drop <;> simp

/-- The tenth check names codes of its own (R16). -/
theorem kindRefusal_code {x : Front} {e : Engine} {f : OrderFields} {code : FinishCode}
    (h : e.kindRefusal x f = some code) : code = .noLock ∨ code = .pairSplit ∨ code = .pairBusy := by
  have lock : (if (x.record f.drive).aux = .doorLock then none else some FinishCode.noLock) = some code →
      code = .noLock := by
    split <;> simp +contextual [eq_comm]
  have detach : e.detachRefusal f.drive = some code → code = .pairSplit ∨ code = .pairBusy := by
    unfold Engine.detachRefusal
    dsimp only
    split
    · simp +contextual [eq_comm]
    · split <;> simp +contextual [eq_comm]
  unfold Engine.kindRefusal at h
  split at h
  · exact .inl (lock h)
  · exact .inl (lock h)
  · exact .inr (detach h)
  all_goals cases h

/-! ### Which check refuses (R11 to R16) -/

/-- A sequence that fails has failed its first check, or passed it and failed later. -/
theorem require_bind_error {α : Type} {ok : Bool} {code c : FinishCode} {k : Unit → Except FinishCode α}
    (h : (require ok code >>= k) = .error c) : c = code ∨ k () = .error c := by
  cases hok : ok with
  | true => exact .inr (by rwa [require_bind_of_true hok] at h)
  | false =>
    rw [require_bind_of_false hok] at h
    cases h
    exact .inl rfl

section
variable {x : Front} {e : Engine} {raw : RawOrder} {kind : Kind} {policy : Policy} {drive : Drive} {desk : Desk}
  {f : OrderFields}

/-- The checks from the buffer's on. -/
def checksLast (x : Front) (e : Engine) (raw : RawOrder) (kind : Kind) (drive : Drive) (f : OrderFields) :
    Except FinishCode OrderFields := do
  require (bufferOk (x.record drive) f) .badBuffer
  require (standingOk kind raw) .badStanding
  require (!(f.drop && x.clock.phase == .closed)) .late
  match e.kindRefusal x f with
  | some code => .error code
  | none => .ok f

/-- Room, copy and range have passed: the rest are judged by the last checks. -/
theorem checksFrom_eq_checksLast (room : e.deskHeld.getD raw.desk 0 < desk.limit)
    (paired : f.pairCopy = true → (e.pairs.get drive.pair).bound = true)
    (single : f.pairCopy = false → kind.writes = true →
      (e.pairs.get drive.pair).bound = false ∨ (e.pairs.get drive.pair).mode = .detached)
    (range : rangeOk (x.record drive) f = true) :
    checksFrom x e raw kind drive desk f = checksLast x e raw kind drive f := by
  unfold checksFrom
  dsimp only
  rw [require_bind_of_true (decide_eq_true room), require_bind_of_true ((pairedOk_iff _ _).mpr paired),
    require_bind_of_true ((singleOk_iff _ _ _ _).mpr single), require_bind_of_true range]
  rfl

/-- The last check alone has been left to judge. -/
theorem checksLast_eq_kindRefusal (buffer : bufferOk (x.record drive) f = true) (standing : standingOk kind raw = true)
    (drop : ¬(f.drop = true ∧ x.clock.phase = .closed)) :
    (e.kindRefusal x f = none → checksLast x e raw kind drive f = .ok f) ∧
    ∀ code, e.kindRefusal x f = some code → checksLast x e raw kind drive f = .error code := by
  have last : checksLast x e raw kind drive f =
      match e.kindRefusal x f with
      | some code => .error code
      | none => .ok f := by
    unfold checksLast
    rw [require_bind_of_true buffer, require_bind_of_true standing, require_bind_of_true ((dropOk_iff _ _).mpr drop)]
  rw [last]
  exact ⟨fun h => by rw [h], fun code h => by rw [h]⟩

theorem checksLast_eq_late (buffer : bufferOk (x.record drive) f = true) (standing : standingOk kind raw = true)
    (drop : f.drop = true ∧ x.clock.phase = .closed) : checksLast x e raw kind drive f = .error .late := by
  unfold checksLast
  rw [require_bind_of_true buffer, require_bind_of_true standing, require_bind_of_false]
  simp [drop]

theorem checksLast_eq_badStanding (buffer : bufferOk (x.record drive) f = true)
    (standing : ¬standingOk kind raw = true) :
    checksLast x e raw kind drive f = .error .badStanding := by
  unfold checksLast
  rw [require_bind_of_true buffer, require_bind_of_false (Bool.eq_false_of_not_eq_true standing)]

theorem checksLast_eq_badBuffer_iff : checksLast x e raw kind drive f = .error .badBuffer ↔
    ¬bufferOk (x.record drive) f = true := by
  constructor
  · intro h buffer
    by_cases standing : standingOk kind raw = true
    · by_cases drop : f.drop = true ∧ x.clock.phase = .closed
      · rw [checksLast_eq_late buffer standing drop] at h
        cases h
      · obtain ⟨hnone, hsome⟩ := checksLast_eq_kindRefusal (e := e) buffer standing drop
        cases hk : e.kindRefusal x f with
        | none => rw [hnone hk] at h; cases h
        | some code =>
          rw [hsome code hk] at h
          cases h
          simpa using kindRefusal_code hk
    · rw [checksLast_eq_badStanding buffer standing] at h
      cases h
  · intro h
    unfold checksLast
    rw [require_bind_of_false (Bool.eq_false_of_not_eq_true h)]

/-- Checks 1 to 6 passed: the rest are judged by the last checks. -/
theorem checkOrder_eq_checksLast (hkind : kindOf? raw.kind = some kind) (hpolicy : policyOf? raw.policy = some policy)
    (hdrive : Drive.ofNumber? raw.drive = some drive) (hpresent : (x.record drive).present = true)
    (hdesk : x.tables.desks[raw.desk]? = some desk) (henabled : desk.enabled = true)
    (room : e.deskHeld.getD raw.desk 0 < desk.limit)
    (paired : (raw.fields kind policy drive).pairCopy = true → (e.pairs.get drive.pair).bound = true)
    (single : (raw.fields kind policy drive).pairCopy = false → kind.writes = true →
      (e.pairs.get drive.pair).bound = false ∨ (e.pairs.get drive.pair).mode = .detached)
    (range : rangeOk (x.record drive) (raw.fields kind policy drive) = true) :
    checkOrder x e raw = checksLast x e raw kind drive (raw.fields kind policy drive) :=
  (checkOrder_eq_checksFrom hkind hpolicy hdrive hpresent hdesk henabled).trans
    (checksFrom_eq_checksLast room paired single range)

end

/-- The codes that the last checks give. -/
theorem checksLast_error {x : Front} {e : Engine} {raw : RawOrder} {kind : Kind} {drive : Drive} {f : OrderFields}
    {code : FinishCode} (h : checksLast x e raw kind drive f = .error code) :
    code ∈ [FinishCode.badBuffer, .badStanding, .late, .noLock, .pairSplit, .pairBusy] := by
  rcases require_bind_error h with rfl | h
  · simp
  rcases require_bind_error h with rfl | h
  · simp
  rcases require_bind_error h with rfl | h
  · simp
  split at h
  · rename_i hk
    cases h
    rcases kindRefusal_code hk with rfl | rfl | rfl <;> simp
  · cases h

/-- Settles O25: with checks 1 to 6 passed the refusal is that of the last checks, whose first is check 7. -/
theorem bufferCheckRefusesWhatDoesNotFit : Obligations.BufferCheckRefusesWhatDoesNotFit := by
  intro x e raw kind policy drive desk hkind hpolicy hdrive hpresent hdesk henabled room f pair paired single range size
  have hf : f.kind = kind := rfl
  have hsize : (x.record drive).size = size := rfl
  rw [checkOrder_eq_checksLast hkind hpolicy hdrive hpresent hdesk henabled room paired single range,
    checksLast_eq_badBuffer_iff, bufferOk_iff, hsize, hf, Classical.not_imp]
  simp only [not_and_or, Nat.not_le, Nat.mod_two_ne_zero]
  rfl

/-- Settles O26: with checks 1 to 7 passed the refusal is that of checks 8, 9 and 10, in this order. -/
theorem standingAndDropChecks : Obligations.StandingAndDropChecks := by
  intro x e raw kind policy drive desk hkind hpolicy hdrive hpresent hdesk henabled room f pair paired single range
    buffer badStanding late
  have standing : standingOk kind raw = true ↔ ¬badStanding := by
    rw [standingOk_iff]
    simp only [badStanding, ne_eq]
    grind
  rw [checkOrder_eq_checksLast hkind hpolicy hdrive hpresent hdesk henabled room paired single range]
  refine ⟨fun h => ?_, fun h hl => ?_, fun h hl => ?_, fun h hl => ?_⟩
  · exact checksLast_eq_badStanding buffer fun hs => standing.mp hs h
  · exact checksLast_eq_late buffer (standing.mpr h) hl
  · exact (checksLast_eq_kindRefusal buffer (standing.mpr h) hl).1
  · exact (checksLast_eq_kindRefusal buffer (standing.mpr h) hl).2

/-! ### The tenth check (R16) -/

theorem Side.bne_iff_eq_other (a b : Side) : (a != b) = true ↔ a = b.other := by
  cases a <;> cases b <;> decide

/-- The log holds an entry of the drive's pair good on the other side, or the pair is DETACHED with the other kept. -/
theorem Engine.split_iff (e : Engine) (d : Drive) : ((e.log.any fun l => l.pair == d.pair && l.good != d.side) ||
      ((e.pairs.get d.pair).mode == .detached && (e.pairs.get d.pair).kept != d.side)) = true ↔
    (∃ l ∈ e.log, l.pair = d.pair ∧ l.good = d.side.other) ∨
      ((e.pairs.get d.pair).mode = .detached ∧ (e.pairs.get d.pair).kept = d.side.other) := by
  simp only [Bool.or_eq_true, List.any_eq_true, Bool.and_eq_true, beq_iff_eq, Side.bne_iff_eq_other]

/-- A PAIR order of the pair runs. -/
theorem Engine.pairBusy_iff (e : Engine) (p : PairId) : (e.held.any fun o => o.state == .running &&
      o.finish.isNone && o.fields.pairCopy && o.pair == p) = true ↔
    ∃ o ∈ e.held, o.state = .running ∧ o.finish = none ∧ o.fields.pairCopy = true ∧ o.fields.drive.pair = p := by
  simp only [List.any_eq_true, Bool.and_eq_true, beq_iff_eq, Option.isNone_iff_eq_none, and_assoc]
  rfl

/-- What the pair manager answers to a DETACH (R16). -/
theorem Engine.detachRefusal_eq (e : Engine) (d : Drive) :
    let split : Prop := (∃ l ∈ e.log, l.pair = d.pair ∧ l.good = d.side.other) ∨
      ((e.pairs.get d.pair).mode = .detached ∧ (e.pairs.get d.pair).kept = d.side.other)
    let busy : Prop := ∃ o ∈ e.held, o.state = .running ∧ o.finish = none ∧ o.fields.pairCopy = true ∧
      o.fields.drive.pair = d.pair
    (split → e.detachRefusal d = some .pairSplit) ∧
    (¬split → busy → e.detachRefusal d = some .pairBusy) ∧
    (¬split → ¬busy → e.detachRefusal d = none) := by
  intro split busy
  have hs : _ ↔ split := e.split_iff d
  have hb : _ ↔ busy := e.pairBusy_iff d.pair
  unfold Engine.detachRefusal
  dsimp only
  exact ⟨fun h => if_pos (hs.mpr h), fun h h' => (if_neg (mt hs.mp h)).trans (if_pos (hb.mpr h')),
    fun h h' => (if_neg (mt hs.mp h)).trans (if_neg (mt hb.mp h'))⟩

/-- A LOCK or UNLOCK needs a drive with a door lock, a DETACH is the pair manager's, and no other kind is refused. -/
theorem Engine.kindRefusal_cases (x : Front) (e : Engine) (f : OrderFields) :
    (f.kind = .lock ∨ f.kind = .unlock →
      ((x.record f.drive).aux = .doorLock → e.kindRefusal x f = none) ∧
      ((x.record f.drive).aux ≠ .doorLock → e.kindRefusal x f = some .noLock)) ∧
    (f.kind = .detach → e.kindRefusal x f = e.detachRefusal f.drive) ∧
    (f.kind ≠ .lock → f.kind ≠ .unlock → f.kind ≠ .detach → e.kindRefusal x f = none) := by
  unfold Engine.kindRefusal
  cases f.kind <;> simp +contextual

/-! ### What an accepted order has passed -/

theorem checkOrder_ok_facts {x : Front} {e : Engine} {raw : RawOrder} {f : OrderFields}
    (h : checkOrder x e raw = .ok f) : raw.kind = f.kind.code ∧ raw.policy ≤ 2 ∧ raw.drive = f.drive.number ∧
      (x.record f.drive).present = true ∧
      (∃ d, x.tables.desks[raw.desk]? = some d ∧ d.enabled = true ∧ e.deskHeld.getD raw.desk 0 < d.limit) ∧
      f.desk = raw.desk ∧ f.drop = raw.drop ∧
      (f.pairCopy = true → (e.pairs.get f.drive.pair).bound = true) ∧
      (f.pairCopy = false → f.kind.writes = true →
        (e.pairs.get f.drive.pair).bound = false ∨ (e.pairs.get f.drive.pair).mode = .detached) ∧
      rangeOk (x.record f.drive) f = true ∧ bufferOk (x.record f.drive) f = true ∧ standingOk f.kind raw = true ∧
      ¬(f.drop = true ∧ x.clock.phase = .closed) ∧ e.kindRefusal x f = none := by
  obtain ⟨kind, policy, drive, desk, hkind, hpolicy, hdrive, hpresent, hdesk, henabled, rfl, hc⟩ := checkOrder_ok h
  obtain ⟨-, room, paired, single, range, buffer, standing, drop, last⟩ := checksFrom_eq_ok hc
  refine ⟨((kindOf?_eq_some _ _).mp hkind).symm, ?_, ((Drive.ofNumber?_eq_some _ _).mp hdrive).symm, hpresent,
    ⟨desk, hdesk, henabled, room⟩, rfl, rfl, (pairedOk_iff _ _).mp paired, (singleOk_iff _ _ _ _).mp single, range,
    buffer, standing, (dropOk_iff _ _).mp drop, last⟩
  by_contra hp
  rw [(policyOf?_eq_none _).mpr (by omega)] at hpolicy
  cases hpolicy

/-- The sectors of an order outside its drive's geometry. -/
theorem not_rangeOk_iff (r : DriveRecord) (f : OrderFields) : ¬rangeOk r f = true ↔
    ((f.kind.run ∨ f.kind = .format ∨ f.kind = .seek) ∧ r.cylinders ≤ f.cylinder) ∨
    ((f.kind.run ∨ f.kind = .format) ∧ r.surfaces ≤ f.surface) ∨
    (f.kind.run ∧ (f.firstSector < r.firstSector ∨ r.firstSector + r.sectors ≤ f.firstSector ∨
      f.count = 0 ∨ 32 < f.count ∨ r.cylinders * r.surfaces * r.sectors ≤ f.start r + f.count - 1)) := by
  rw [rangeOk_iff]
  generalize f.start r + f.count - 1 = last
  generalize r.cylinders * r.surfaces * r.sectors = total
  by_cases run : f.kind.run
  · simp only [run, true_or, true_and, true_implies]; omega
  · simp only [run, false_or, false_and, false_implies]; grind

/-- The first of the checks 4 to 6 that fails names the refusal. -/
theorem checksFrom_refuses (x : Front) (e : Engine) (raw : RawOrder) (kind : Kind) (drive : Drive) (desk : Desk)
    (f : OrderFields) :
    let refused (code : FinishCode) : Prop := checksFrom x e raw kind drive desk f = .error code
    let room : Prop := e.deskHeld.getD raw.desk 0 < desk.limit
    let paired : Prop := f.pairCopy = true → (e.pairs.get drive.pair).bound = true
    let single : Prop := f.pairCopy = false → kind.writes = true →
      (e.pairs.get drive.pair).bound = false ∨ (e.pairs.get drive.pair).mode = .detached
    (¬room → refused .deskFull) ∧ (room → ¬paired → refused .notPaired) ∧
    (room → paired → ¬single → refused .notSingle) ∧
    (room → paired → single → ¬rangeOk (x.record drive) f = true → refused .badRange) := by
  intro refused room paired single
  have isTrue (h : room) : decide (e.deskHeld.getD raw.desk 0 < desk.limit) = true := decide_eq_true h
  have isPaired : _ ↔ paired := pairedOk_iff _ _
  have isSingle : _ ↔ single := singleOk_iff _ _ _ _
  simp only [refused, checksFrom]
  refine ⟨fun h => ?_, fun h h' => ?_, fun h h' h'' => ?_, fun h h' h'' hr => ?_⟩
  · exact require_bind_of_false (decide_eq_false h)
  · rw [require_bind_of_true (isTrue h), require_bind_of_false]
    exact Bool.eq_false_of_not_eq_true (mt isPaired.mp h')
  · rw [require_bind_of_true (isTrue h), require_bind_of_true (isPaired.mpr h'), require_bind_of_false]
    exact Bool.eq_false_of_not_eq_true (mt isSingle.mp h'')
  · rw [require_bind_of_true (isTrue h), require_bind_of_true (isPaired.mpr h'),
      require_bind_of_true (isSingle.mpr h''), require_bind_of_false (Bool.eq_false_of_not_eq_true hr)]

/-- Settles O27: what passes has passed each check, the first that fails names the refusal, and the tenth is the
drive's door lock's and the pair manager's. -/
theorem checksRefuseByTheFirstThatFails : Obligations.ChecksRefuseByTheFirstThatFails := by
  intro x e
  refine ⟨fun raw f h => ?_, fun raw => ?_, fun f => ?_⟩
  · obtain ⟨hkind, hpolicy, hdrive, hpresent, hdesk, rfl', hdrop, paired, single, range, buffer, standing, drop,
      last⟩ :=
      checkOrder_ok_facts h
    obtain ⟨cylinder, surface, run⟩ := (rangeOk_iff _ _).mp range
    refine ⟨hkind, hpolicy, hdrive, hpresent, hdesk, rfl', paired, single, fun hr => ?_, fun hr => ?_, fun hr => ?_,
      (bufferOk_iff _ _).mp buffer, (standingOk_iff _ _).mp standing, fun hd hp => drop ⟨hdrop.trans hd, hp⟩, last⟩
    · exact ⟨cylinder (.inl hr), surface (.inl hr), run hr⟩
    · exact ⟨cylinder (.inr (.inl hr)), surface (.inr hr)⟩
    · exact cylinder (.inr (.inr hr))
  · refine ⟨fun h => checkOrder_badKind ?_, fun kind policy hkind hpolicy => ⟨fun h => ?_,
      fun drive hdrive hpresent => ⟨fun h => ?_, fun desk hdesk henabled => ?_⟩⟩⟩
    · refine h.imp (fun h => ?_) (policyOf?_eq_none _).mpr
      rw [Option.eq_none_iff_forall_ne_some]
      exact fun k hk => h k ((kindOf?_eq_some _ _).mp hk)
    all_goals rw [← kindOf?_eq_some] at hkind
    · exact checkOrder_badDrive hkind hpolicy fun d hd => h d ((Drive.ofNumber?_eq_some _ _).mp hd)
    all_goals rw [← Drive.ofNumber?_eq_some] at hdrive
    · exact checkOrder_badDesk hkind hpolicy hdrive hpresent h
    · obtain ⟨full, unpaired, single, range⟩ :=
        checksFrom_refuses x e raw kind drive desk (raw.fields kind policy drive)
      have found := checkOrder_eq_checksFrom (e := e) hkind hpolicy hdrive hpresent hdesk henabled
      intro held
      refine ⟨fun h => found.trans (full (Nat.not_lt.mpr h)), fun room => ?_⟩
      intro f r bound writes run notPaired notSingle outside
      have isPaired : ¬notPaired ↔ (f.pairCopy = true → bound = true) := by simp [notPaired]
      have isSingle : ¬notSingle ↔ (f.pairCopy = false → kind.writes = true →
          bound = false ∨ (e.pairs.get drive.pair).mode = .detached) := by
        have mode : (e.pairs.get drive.pair).mode ≠ .attached ↔ (e.pairs.get drive.pair).mode = .detached := by
          cases (e.pairs.get drive.pair).mode <;> decide
        rw [← mode, kind.writes_iff]
        simp [notSingle, writes]
        grind
      have isInside : ¬outside ↔ rangeOk r f = true := by
        rw [← not_iff_comm, not_rangeOk_iff]
        rfl
      refine ⟨fun h => found.trans (unpaired room (mt isPaired.mpr (not_not.mpr h))),
        fun h => found.trans (single room ?_ (mt isSingle.mpr (not_not.mpr h))),
        fun h h' ho => found.trans (range room (isPaired.mp h) (isSingle.mp h') (mt isInside.mpr (not_not.mpr ho))),
        fun h h' ho => ?_⟩
      · exact fun hp => absurd (h.1.symm.trans hp) (by decide)
      · have last := found.trans (checksFrom_eq_checksLast room (isPaired.mp h) (isSingle.mp h') (isInside.mp ho))
        intro code hcode hrefused
        have hlast := checksLast_error (last.symm.trans hrefused)
        simp only [List.mem_cons, List.not_mem_nil, or_false] at hcode hlast
        rcases hcode with rfl | rfl | rfl | rfl | rfl | rfl | rfl <;> simp at hlast
  · obtain ⟨lock, detach, others⟩ := Engine.kindRefusal_cases x e f
    exact ⟨lock, fun hk => by rw [detach hk]; exact Engine.detachRefusal_eq e f.drive, others⟩

end Sys2Proof.Machine

namespace Sys2Proof.Machine

/-! ### The reset values (R173) -/

theorem BySide.drive_allDrives {α : Type} (v : α) (d : Drive) : (BySide.allDrives v).drive d = v := by
  obtain ⟨c, p⟩ := d
  cases c <;> cases p <;> rfl

theorem Engine.resetWith_drive (a b : BySide SectorBuffer) (n : Nat) (d : Drive) :
    (Engine.resetWith a b n).drive d = Knowledge.reset := BySide.drive_allDrives _ d

theorem Engine.resetWith_pairs (a b : BySide SectorBuffer) (n : Nat) (p : PairId) :
    (Engine.resetWith a b n).pairs.get p = { bound := false, mode := .attached, kept := .A, lost := 0 } := by
  cases p <;> rfl

theorem Engine.resetWith_timer (a b : BySide SectorBuffer) (n : Nat) (d : Drive) :
    (Engine.resetWith a b n).timers.drive d = .stopped := BySide.drive_allDrives _ d

/-- Settles O1: every value is a constant of the reset state; those of a channel, a drive or a pair are the same for
each. -/
theorem resetLeavesTheSpecifiedValues : Obligations.ResetLeavesTheSpecifiedValues := by
  have chan (c : Side) : State.reset.engine.chan c = Channel.resetWith (BySide.both SectorBuffer.empty) := by
    cases c <;> rfl
  have drive (d : Drive) : State.reset.engine.drive d = Knowledge.reset := BySide.drive_allDrives _ d
  refine ⟨rfl, rfl, rfl, rfl, rfl, rfl, rfl, rfl, by decide, rfl, rfl, rfl, rfl, Engine.resetWith_pairs _ _ _, rfl,
    rfl, fun c => ?_, Engine.resetWith_timer _ _ _, fun d => ?_, rfl, rfl, rfl, rfl, rfl, rfl, rfl⟩
  · rw [chan c]
    exact ⟨rfl, rfl, rfl, rfl, rfl, rfl⟩
  · rw [drive d]
    exact ⟨rfl, rfl, rfl, rfl, rfl, rfl, rfl, rfl, rfl, rfl⟩

/-- Settles O12: after a reset no order is held, no entry logged, no write gate up, and the controller is in CONFIG. -/
theorem resetStateIsSafe : Obligations.ResetStateIsSafe := by
  unfold Obligations.ResetStateIsSafe
  have held : State.reset.engine.held = [] := rfl
  have cleared : ∀ n < 8, State.reset.engine.deskHeld.getD n 0 = 0 := by decide
  have uncounted (d : Drive) : (State.reset.engine.drive d).heldCount = 0 :=
    congrArg Knowledge.heldCount (BySide.drive_allDrives Knowledge.reset d)
  exact {
    memory := rfl
    front := ⟨by decide, by decide, by decide, fun _ => rfl, by decide, by decide, fun _ => rfl⟩
    held := ⟨by simp [held], by simp [held], nofun⟩
    log := .nil
    clear := nofun
    room := ⟨by decide, by decide, by simp [held], by simp [held], fun _ => held⟩
    counted := ⟨by decide, by simpa [held] using cleared, by simpa [held] using uncounted, fun _ => held⟩
    gates := fun c h => by cases c <;> cases h
    outputs := fun h => absurd h (by decide) }

/-- What both resets leave (R173). -/
theorem State.resetTo_clearedTo (s : State) (base : BitVec 12) (line : Bool) (moved : Nat) :
    s.ClearedTo (s.resetTo base line moved) where
  ctl := rfl
  starting := rfl
  tables := rfl
  actionQ := rfl
  intake := rfl
  done := rfl
  notify := rfl
  enable := rfl
  round := rfl
  clock := rfl
  faultActive := rfl
  pins := rfl
  attention := rfl
  held := rfl
  deskHeld := rfl
  closes := rfl
  pairs := Engine.resetWith_pairs _ _ _
  log := rfl
  reserved := rfl
  queue := rfl
  notices := rfl
  inProgress := rfl
  channels c := by cases c <;> rfl
  timers := Engine.resetWith_timer _ _ _
  drives := Engine.resetWith_drive _ _ _
  survey := rfl
  pending := rfl
  mem h := by
    show s.landed moved = s.mem
    unfold State.landed
    simp only [h]

/-- Settles O19: both resets leave the reset values, AREA BASE and the line apart. -/
theorem resetsReturnToTheResetValues : Obligations.ResetsReturnToTheResetValues := by
  intro s moved
  refine ⟨⟨_, rfl, rfl, rfl, s.resetTo_clearedTo 0 true moved⟩, fun hline => ?_, rfl⟩
  refine ⟨s.resetTo s.front.areaBase false (max 1 moved), ?_, rfl, rfl, s.resetTo_clearedTo _ _ _⟩
  show execReset moved s = _
  simp only [execReset, Front.hears, hline, Bool.not_false, if_true]

/-! ### Commands and register writes that are taken, or leave no trace (R162, R167 to R169, R176) -/

theorem Front.active_iff (x : Front) : x.active = true ↔ x.ctl = .run ∨ x.ctl = .draining := by
  simp [Front.active]

theorem Front.hears_of_line {x : Front} (h : x.resetLine = true) : x.hears = false := by simp [Front.hears, h]

theorem Front.hears_of_noLine {x : Front} (h : x.resetLine = false) : x.hears = true := by simp [Front.hears, h]

/-- Which DONE bits a write of a half register names (R169). -/
theorem doneBits_getLsbD (high : Bool) (w : Word) {slot : Nat} (h : slot < 32) :
    (doneBits high w).getLsbD slot = (w.getLsbD (slot % 16) && (decide (16 ≤ slot) == high)) := by
  cases high
  · by_cases hs : 16 ≤ slot
    · simp [doneBits, h, hs]
    · simp [doneBits, h, hs, Nat.mod_eq_of_lt (Nat.not_le.mp hs)]
  · by_cases hs : 16 ≤ slot
    · have : slot % 16 = slot - 16 := by omega
      simp [doneBits, h, hs, this, Nat.not_lt.mpr hs]
    · simp [doneBits, h, hs, Nat.not_le.mp hs]

theorem Front.clearDone_eq (x : Front) (high : Bool) (w : Word) :
    x.clearDone high w = { x with done := (x.clearDone high w).done, notify := (x.clearDone high w).notify } := rfl

/-- A half's write clears the bits it names, and no other (R26, R169). -/
theorem Front.clearDone_getLsbD (x : Front) (high : Bool) (w : Word) {slot : Nat} (h : slot < 32) :
    let hit := w.getLsbD (slot % 16) && (decide (16 ≤ slot) == high)
    (x.clearDone high w).done.getLsbD slot = (x.done.getLsbD slot && !hit) ∧
    (x.clearDone high w).notify.getLsbD slot = (x.notify.getLsbD slot && !hit) := by
  simp only [Front.clearDone, BitVec.getLsbD_and, BitVec.getLsbD_not, doneBits_getLsbD high w h, h, decide_true,
    Bool.true_and, and_self]

/-- A write of ATTENTION clears the bits it names, and no other (R169). -/
theorem Engine.clearAttention_getLsbD (e : Engine) (w : Word) {k : Nat} (h : k < 10) :
    (e.clearAttention w).attention.getLsbD k = (e.attention.getLsbD k && !w.getLsbD k) := by
  simp [Engine.clearAttention, h]

/-- Where the line is active no command and no write is heard (R173). -/
theorem exec_of_line {s : State} (h : s.front.resetLine = true) (moved : Nat) (high : Bool) (w : Word) :
    ∀ c ∈ [Instr.start, .stop, .abortAll, .reset moved, .clockLoad, .clockRun, .clockHalt,
      .areaBaseWrite w, .actionWrite w, .doneClear high w, .attentionClear w], exec c s = .next s := by
  have deaf := Front.hears_of_line h
  intro c hc
  simp only [List.mem_cons, List.not_mem_nil, or_false] at hc
  rcases hc with rfl | rfl | rfl | rfl | rfl | rfl | rfl | rfl | rfl | rfl | rfl <;>
    simp only [exec, execStart, execStop, execAbortAll, execReset, execClockLoad, execClockRun, execClockHalt,
      execAreaBaseWrite, execActionWrite, execDoneClear, execAttentionClear, deaf, Bool.false_eq_true, false_and,
      if_false]

/-- A command that a state does not take leaves it as it is (R162). -/
theorem exec_of_not_taken (s : State) :
    (s.front.ctl ≠ .config → exec .start s = .next s) ∧
    (s.front.ctl ≠ .run → exec .stop s = .next s) ∧
    (s.front.ctl ≠ .run → s.front.ctl ≠ .draining →
      exec .abortAll s = .next s ∧ exec .clockLoad s = .next s ∧ exec .clockRun s = .next s ∧
      exec .clockHalt s = .next s) := by
  refine ⟨fun h => ?_, fun h => ?_, fun h h' => ?_⟩
  · simp only [exec, execStart, h, and_false, if_false]
  · simp only [exec, execStop, h, and_false, if_false]
  · have active : s.front.active = false := by simp [Front.active, h, h']
    simp only [exec, execAbortAll, execClockLoad, execClockRun, execClockHalt, active, Bool.false_eq_true, and_false,
      if_false, and_self]

/-- Settles O21: each write asks for the line and the state, and does what it says of the register's bits. -/
theorem registerWritesAreTakenOrLeaveNoTrace : Obligations.RegisterWritesAreTakenOrLeaveNoTrace := by
  refine ⟨fun s => ?_, fun s w hline => ?_⟩
  · obtain ⟨start, stop, others⟩ := exec_of_not_taken s
    exact ⟨start, stop, others, exec_of_line⟩
  · have hears := Front.hears_of_noLine hline
    refine ⟨fun h => ?_, fun h => ?_, fun h => ?_, fun h h' => ?_, fun high => ?_, ?_⟩
    · simp only [exec, execAreaBaseWrite, hears, h, and_self, if_true]
    · simp only [exec, execAreaBaseWrite, h, and_false, if_false]
    · have active := s.front.active_iff.mpr h
      refine ⟨fun h => ?_, fun h => ?_⟩
      · simp only [exec, execActionWrite, hears, active, and_self, if_true, Config.actionCapacity, h]
      · simp only [exec, execActionWrite, hears, active, and_self, if_true, Config.actionCapacity, Nat.not_lt.mpr h,
          if_false]
        rfl
    · have active : s.front.active = false := by simp [Front.active, h, h']
      simp only [exec, execActionWrite, active, Bool.false_eq_true, and_false, if_false]
    · refine ⟨s.front.clearDone high w, ?_, s.front.clearDone_eq high w,
        fun slot hs => s.front.clearDone_getLsbD high w hs⟩
      simp only [exec, execDoneClear, hears, if_true]
    · refine ⟨(s.engine.clearAttention w).attention, ?_, fun k hk => s.engine.clearAttention_getLsbD w hk⟩
      simp only [exec, execAttentionClear, hears, if_true]
      rfl

end Sys2Proof.Machine

namespace Sys2Proof.Machine

/-! ### The order of a slot -/

/-- Two changes of a slot's order, one after the other. -/
theorem Engine.updOrder_updOrder (e : Engine) (slot : Nat) (f g : Order → Order) (hf : ∀ o, (f o).slot = o.slot) :
    (e.updOrder slot f).updOrder slot g = e.updOrder slot fun o => g (f o) := by
  have comp (o : Order) : (if (if o.slot == slot then f o else o).slot == slot then
      g (if o.slot == slot then f o else o) else if o.slot == slot then f o else o) =
      if o.slot == slot then g (f o) else o := by
    by_cases h : o.slot = slot <;> simp [h, hf]
  simp only [Engine.updOrder, List.map_map, Function.comp_def, comp]

/-- A change that leaves the slot's order leaves the engine. -/
theorem Engine.updOrder_eq_self {e : Engine} {slot : Nat} {f : Order → Order}
    (h : ∀ o ∈ e.held, o.slot = slot → f o = o) : e.updOrder slot f = e := by
  have held : (e.held.map fun o => if o.slot == slot then f o else o) = e.held := by
    refine (List.map_congr_left fun o ho => ?_).trans (List.map_id _)
    by_cases hs : o.slot = slot
    · simp [hs, h o ho hs]
    · simp [hs]
  unfold Engine.updOrder
  rw [held]

/-- Where each slot is held once, what is said of the slot's order is said of every order of the slot. -/
theorem Engine.order?_unique {e : Engine} (hn : (e.held.map Order.slot).Nodup) {slot : Nat} {o : Order}
    (ho : e.order? slot = some o) : ∀ o' ∈ e.held, o'.slot = slot → o' = o := by
  rintro o' ho' rfl
  exact (Engine.order?_eq hn ho' ho).symm

/-- Where each slot is held once, an order held is found by its slot. -/
theorem Engine.order?_of_mem {e : Engine} (hn : (e.held.map Order.slot).Nodup) {o : Order} (ho : o ∈ e.held) :
    e.order? o.slot = some o := by
  cases hs : e.order? o.slot with
  | none => exact absurd ho (by simpa using fun h => List.find?_eq_none.mp hs o h)
  | some o' => rw [Engine.order?_eq hn ho hs]

/-! ### The return of a reservation (R63) -/

/-- The header write of the reserved total, where an order returns a reservation (R61). -/
def Engine.returnWrites (x : Front) (e : Engine) (o : Order) : List Request :=
  if o.reservation = 0 then [] else
    [{ kind := .headerWrite,
       words :=
         [{ addr := x.areaBase.toNat * 256 + 0x22, data := some (BitVec.ofNat 16 (e.reserved - o.reservation)) }],
       notice := none }]

/-- The order of a slot has returned its reservation and been changed, and requests have followed. -/
def Engine.became (x : Front) (e : Engine) (slot : Nat) (o : Order) (f : Order → Order) (rs : List Request) : Engine :=
  { e with
    held := e.held.map fun o' => if o'.slot == slot then f { o' with reservation := 0 } else o',
    reserved := e.reserved - o.reservation,
    port := { e.port with queue := e.port.queue ++ (e.returnWrites x o ++ rs) } }

theorem Engine.unreserve_eq (x : Front) {e : Engine} {slot : Nat} {o : Order} (ho : e.order? slot = some o)
    (hn : (e.held.map Order.slot).Nodup) : e.unreserve x slot = e.became x slot o id [] := by
  by_cases hr : o.reservation = 0
  · have same : e.updOrder slot (fun o => { o with reservation := 0 }) = e :=
      Engine.updOrder_eq_self fun o' ho' hs => by rw [Engine.order?_unique hn ho o' ho' hs, ← hr]
    have held := congrArg Engine.held same
    simp only [Engine.unreserve, ho, hr, if_true, Engine.became, Engine.returnWrites, Nat.sub_zero, List.append_nil]
    exact (congrArg (fun l => { e with held := l }) held).symm
  · simp only [Engine.unreserve, ho, hr, if_false, Engine.became, Engine.returnWrites]
    rfl

/-! ### The finish of an order (R24, R25, R86) -/

/-- A slot's phase write. -/
def phaseRequest (x : Front) (slot phase : Nat) (notice : Option Notice) : Request :=
  { kind := .slotWrite, words := areaWords x [(slotOffset slot, BitVec.ofNat 16 phase)], notice := notice }

/-- The write of a slot's results. -/
def resultsRequest (x : Front) (slot : Nat) (r : Results) : Request :=
  { kind := .slotWrite,
    words := areaWords x ((r.words x.round.toNat).zipIdx.map fun p => (slotOffset slot + 0x12 + 2 * p.2, p.1)),
    notice := none }

/-- A change of the slot's order after the return, and the writes that follow it. -/
theorem Engine.unreserve_updOrder (x : Front) {e : Engine} {slot : Nat} {o : Order} (ho : e.order? slot = some o)
    (hn : (e.held.map Order.slot).Nodup) (f : Order → Order) (r : Results) (phase : Nat) (notice : Option Notice) :
    (((e.unreserve x slot).updOrder slot f).writeResults x slot r).writePhase x slot phase notice =
      e.became x slot o f [resultsRequest x slot r, phaseRequest x slot phase notice] := by
  have comp (o : Order) : (if (if o.slot == slot then { o with reservation := 0 } else o).slot == slot then
      f (if o.slot == slot then { o with reservation := 0 } else o)
      else if o.slot == slot then { o with reservation := 0 } else o) =
      if o.slot == slot then f { o with reservation := 0 } else o := by
    by_cases h : o.slot = slot <;> simp [h]
  rw [Engine.unreserve_eq x ho hn]
  simp only [Engine.became, Engine.updOrder, Engine.writeResults, Engine.writePhase, Engine.issue, List.map_map,
    Function.comp_def, id, comp, List.append_nil, List.append_assoc]
  rfl

/-- The finish of a held order, decided. -/
def Order.finished (o : Order) (code : FinishCode) : Order :=
  { o with finish := some code, waiter := none, cursor := none, turn := none }

theorem Engine.decideFinish_eq (x : Front) {e : Engine} {slot : Nat} {o : Order} (ho : e.order? slot = some o)
    (hn : (e.held.map Order.slot).Nodup) (hf : o.finish = none) (code : FinishCode) (late : Bool) :
    e.decideFinish x slot code late = e.became x slot o (Order.finished · code)
      [resultsRequest x slot ((if late then o.clearRun else o).results code),
        phaseRequest x slot phaseFinished (some (.doneBit slot o.fields.notify .leaves late))] := by
  simp only [Engine.decideFinish, ho, hf, Option.isSome_none, Bool.false_eq_true, if_false]
  exact Engine.unreserve_updOrder x ho hn (Order.finished · code) _ _ _

theorem Engine.backToStanding_eq (x : Front) {e : Engine} {slot : Nat} {o : Order} (ho : e.order? slot = some o)
    (hn : (e.held.map Order.slot).Nodup) (code : FinishCode) :
    e.backToStanding x slot code = e.became x slot o (fun o => { o.clearRun with state := .waitingRound })
      [resultsRequest x slot (o.results code),
        phaseRequest x slot phaseStanding (some (.doneBit slot o.fields.notify .stays false))] := by
  simp only [Engine.backToStanding, ho]
  exact Engine.unreserve_updOrder x ho hn _ _ _ _

end Sys2Proof.Machine

namespace Sys2Proof.Machine

/-! ### What a channel changes when it lets go of its order (R104, R115, R116) -/

theorem Side.eq_other_of_ne {c d : Side} (h : d ≠ c) : d = c.other := by
  cases c <;> cases d <;> simp_all [Side.other]

/-- The engine goes on from `e` to `e'` with the port, channel `c`, the timers and the drives' records changed at
most. -/
def Engine.OnlyChannel (c : Side) (e e' : Engine) : Prop :=
  ∃ p v t k, e' = { (e.setChan c v) with port := p, timers := t, drives := k }

section
variable {c : Side} {a e e' : Engine}

theorem Engine.OnlyChannel.refl (c : Side) (e : Engine) : e.OnlyChannel c e :=
  ⟨e.port, e.chan c, e.timers, e.drives, by cases c <;> rfl⟩

theorem Engine.OnlyChannel.trans (h : a.OnlyChannel c e) (k : e.OnlyChannel c e') : a.OnlyChannel c e' := by
  obtain ⟨p, v, t, d, rfl⟩ := h
  obtain ⟨p', v', t', d', rfl⟩ := k
  exact ⟨p', v', t', d', by cases c <;> rfl⟩

theorem Engine.OnlyChannel.held (h : a.OnlyChannel c e) : e.held = a.held := by
  obtain ⟨p, v, t, d, rfl⟩ := h
  rfl

theorem Engine.OnlyChannel.log (h : a.OnlyChannel c e) : e.log = a.log := by
  obtain ⟨p, v, t, d, rfl⟩ := h
  rfl

theorem Engine.OnlyChannel.pairs (h : a.OnlyChannel c e) : e.pairs = a.pairs := by
  obtain ⟨p, v, t, d, rfl⟩ := h
  rfl

theorem Engine.OnlyChannel.reserved (h : a.OnlyChannel c e) : e.reserved = a.reserved := by
  obtain ⟨p, v, t, d, rfl⟩ := h
  rfl

theorem Engine.OnlyChannel.survey (h : a.OnlyChannel c e) : e.survey = a.survey := by
  obtain ⟨p, v, t, d, rfl⟩ := h
  rfl

theorem Engine.OnlyChannel.deskHeld (h : a.OnlyChannel c e) : e.deskHeld = a.deskHeld := by
  obtain ⟨p, v, t, d, rfl⟩ := h
  rfl

theorem Engine.OnlyChannel.other (h : a.OnlyChannel c e) : e.chan c.other = a.chan c.other := by
  obtain ⟨p, v, t, d, rfl⟩ := h
  cases c <;> rfl

theorem Engine.OnlyChannel.order? (h : a.OnlyChannel c e) (slot : Nat) : e.order? slot = a.order? slot := by
  unfold Engine.order?
  rw [h.held]

end

theorem Engine.issue_onlyChannel (e : Engine) (c : Side) (k : RequestKind) (ws : List Access) (n : Option Notice) :
    e.OnlyChannel c (e.issue k ws n) := ⟨_, e.chan c, e.timers, e.drives, by cases c <;> rfl⟩

theorem Engine.updChan_onlyChannel (e : Engine) (c : Side) (f : Channel → Channel) :
    e.OnlyChannel c (e.updChan c f) := ⟨e.port, f (e.chan c), e.timers, e.drives, rfl⟩

theorem Engine.setChan_onlyChannel (e : Engine) (c : Side) (v : Channel) : e.OnlyChannel c (e.setChan c v) :=
  ⟨e.port, v, e.timers, e.drives, rfl⟩

theorem Engine.setDrive_onlyChannel (e : Engine) (c : Side) (d : Drive) (k : Knowledge) :
    e.OnlyChannel c (e.setDrive d k) := ⟨e.port, e.chan c, e.timers, _, by cases c <;> rfl⟩

theorem Engine.setTimer_onlyChannel (e : Engine) (c : Side) (d : Drive) (t : Timer) :
    e.OnlyChannel c (e.setTimer d t) := ⟨e.port, e.chan c, _, e.drives, by cases c <;> rfl⟩

theorem Engine.deselect_onlyChannel (x : Front) (e : Engine) (c : Side) (survey : Bool) (notice : Option Notice) :
    e.OnlyChannel c (e.deselect x c survey notice) := by
  have timed (e' : Engine) (d : Drive) (t : Timer) :
      e'.OnlyChannel c (if survey = true then e' else e'.setTimer d t) := by
    split
    · exact .refl c e'
    · exact Engine.setTimer_onlyChannel e' c d t
  unfold Engine.deselect
  dsimp only
  split
  · exact .refl c e
  · exact (Engine.setChan_onlyChannel e c _).trans ((timed _ _ _).trans ((Engine.setDrive_onlyChannel _ c _ _).trans
      (Engine.issue_onlyChannel _ c _ _ _)))

theorem Engine.enter_onlyChannel (x : Front) (e : Engine) (c : Side) (st : ChannelState) :
    e.OnlyChannel c (e.enter x c st) := by
  unfold Engine.enter
  split
  · exact .refl c e
  · exact (Engine.updChan_onlyChannel e c _).trans (Engine.issue_onlyChannel _ c _ _ _)

theorem Engine.toIdle_onlyChannel (x : Front) (e : Engine) (c : Side) : e.OnlyChannel c (e.toIdle x c) :=
  (Engine.updChan_onlyChannel e c _).trans (Engine.enter_onlyChannel x _ c _)

/-- The channel after it has entered a state. -/
theorem Engine.enter_chan (x : Front) (e : Engine) (c : Side) (st : ChannelState) :
    (e.enter x c st).chan c = { e.chan c with state := st } := by
  unfold Engine.enter
  split
  · rename_i h
    rw [← h]
  · exact Engine.chan_updChan e c fun ch => { ch with state := st }

theorem Engine.toIdle_chan (x : Front) (e : Engine) (c : Side) :
    (e.toIdle x c).chan c = { (e.chan c).letGo with state := .idle } := by
  rw [Engine.toIdle, Engine.enter_chan, Engine.chan_updChan]

theorem Engine.deselect_of_none (x : Front) {e : Engine} {c : Side} (h : (e.chan c).selected = none) (survey : Bool)
    (notice : Option Notice) : e.deselect x c survey notice = e := by
  simp only [Engine.deselect, h]

/-- The channel after its deselection. -/
theorem Engine.deselect_chan (x : Front) {e : Engine} {c : Side} {p : PairId} (h : (e.chan c).selected = some p)
    (survey : Bool) (notice : Option Notice) : (e.deselect x c survey notice).chan c =
      { e.chan c with selected := none, writeGate := false, writeData := [], headLoad := e.keptLoad c } := by
  have written (e' : Engine) (d : Drive) (k : Knowledge) (n : Option Notice) :
      ((e'.setDrive d k).writeStatus x d n).chan c = e'.chan c := rfl
  have timed (e' : Engine) (d : Drive) (t : Timer) :
      (if survey = true then e' else e'.setTimer d t).chan c = e'.chan c := by
    cases survey <;> rfl
  simp only [Engine.deselect, h]
  rw [written, timed, Engine.chan_setChan]

/-- What a deselection leaves of the channel. -/
theorem Engine.deselect_eq (x : Front) (e : Engine) (c : Side) (survey : Bool) (notice : Option Notice) :
    (e.deselect x c survey notice).chan c = { e.chan c with
      selected := none,
      writeGate := ((e.deselect x c survey notice).chan c).writeGate,
      writeData := ((e.deselect x c survey notice).chan c).writeData,
      headLoad := ((e.deselect x c survey notice).chan c).headLoad } := by
  cases h : (e.chan c).selected with
  | none =>
    rw [Engine.deselect_of_none x h]
    exact h ▸ rfl
  | some p => rw [Engine.deselect_chan x h]

/-- A channel without an order keeps none when it comes to its clean point, and nothing but it changes. -/
theorem Engine.tryClean_of_none (x : Front) {e : Engine} {c : Side} (h : (e.chan c).order = none) :
    e.OnlyChannel c (e.tryClean x c) ∧ ((e.tryClean x c).chan c).order = none := by
  unfold Engine.tryClean
  split
  · split
    · exact ⟨Engine.updChan_onlyChannel e c _, by simpa [Engine.rest] using h⟩
    · have : e.release x c = (e.deselect x c false none).toIdle x c := by
        unfold Engine.release
        rw [h]
      rw [this]
      refine ⟨(Engine.deselect_onlyChannel x e c _ _).trans (Engine.toIdle_onlyChannel x _ c), ?_⟩
      rw [Engine.toIdle_chan]
      rfl
  · exact ⟨.refl c e, h⟩

/-- The channel that waited for an order gives it up, and nothing but that channel changes (R53, R114). -/
theorem Engine.freeWaiter_onlyChannel (x : Front) (e : Engine) (c : Side) (slot : Nat) :
    e.OnlyChannel c (e.freeWaiter x c slot) := by
  unfold Engine.freeWaiter
  split
  · exact .refl c e
  · split
    · exact Engine.updChan_onlyChannel e c _
    · exact (Engine.updChan_onlyChannel e c _).trans (Engine.tryClean_of_none x (by simp)).1

theorem Engine.freeWaiter_order (x : Front) {e : Engine} {c : Side} {slot : Nat}
    (h : (e.chan c).order = some slot) : ((e.freeWaiter x c slot).chan c).order = none := by
  unfold Engine.freeWaiter
  rw [if_neg (by simp [h])]
  split
  · simp
  · exact (Engine.tryClean_of_none x (by simp)).2

/-! ### The finish of a waiting order (R20, R27 to R29) -/

theorem Engine.finishWaiting_of_noWaiter (x : Front) {e : Engine} {slot : Nat} {o : Order}
    (ho : e.order? slot = some o) (hw : o.waiter = none) (code : FinishCode) (late : Bool) :
    e.finishWaiting x slot code late = e.decideFinish x slot code late := by
  simp only [Engine.finishWaiting, ho, hw]

/-- The waiting order's channel is freed after its finish has been decided. -/
theorem Engine.finishWaiting_of_waiter (x : Front) {e : Engine} {slot : Nat} {o : Order} {c : Side}
    (ho : e.order? slot = some o) (hw : o.waiter = some c) (code : FinishCode) (late : Bool) :
    e.finishWaiting x slot code late = (e.decideFinish x slot code late).freeWaiter x c slot := by
  simp only [Engine.finishWaiting, ho, hw]

/-- With the slot's order finished, the others stay as they are. -/
theorem Engine.finishWaiting_held (x : Front) {e : Engine} {slot : Nat} {o : Order} (ho : e.order? slot = some o)
    (hn : (e.held.map Order.slot).Nodup) (hf : o.finish = none) (code : FinishCode) (late : Bool) :
    (e.finishWaiting x slot code late).held = e.held.map fun o' =>
      if o'.slot == slot then { o' with reservation := 0 }.finished code else o' := by
  have decided : (e.decideFinish x slot code late).held = e.held.map fun o' =>
      if o'.slot == slot then { o' with reservation := 0 }.finished code else o' := by
    rw [Engine.decideFinish_eq x ho hn hf]
    rfl
  cases hw : o.waiter with
  | none => rw [Engine.finishWaiting_of_noWaiter x ho hw, decided]
  | some c => rw [Engine.finishWaiting_of_waiter x ho hw, (Engine.freeWaiter_onlyChannel x _ c slot).held, decided]

theorem Engine.unreserve_order? (x : Front) {e : Engine} {slot : Nat} {o : Order} (ho : e.order? slot = some o) :
    (e.unreserve x slot).order? slot = some { o with reservation := 0 } := by
  by_cases hr : o.reservation = 0
  · simp only [Engine.unreserve, ho, hr, if_true]
    rw [← hr]
  · simp only [Engine.unreserve, ho, hr, if_false]
    refine (Engine.order?_updOrder _ slot (fun o => { o with reservation := 0 }) fun _ => rfl).trans ?_
    exact congrArg (Option.map fun o => { o with reservation := 0 }) ho

/-- A finish decided now stands in the order's record. -/
theorem Engine.decideFinish_order? (x : Front) {e : Engine} {slot : Nat} {o : Order} (ho : e.order? slot = some o)
    (hf : o.finish = none) (code : FinishCode) (late : Bool) :
    (e.decideFinish x slot code late).order? slot = some ({ o with reservation := 0 }.finished code) := by
  simp only [Engine.decideFinish, ho, hf, Option.isSome_none, Bool.false_eq_true, if_false]
  refine (Engine.order?_updOrder _ slot (Order.finished · code) fun _ => rfl).trans ?_
  rw [Engine.unreserve_order? x ho]
  rfl

theorem Engine.finishWaiting_order? (x : Front) {e : Engine} {slot : Nat} {o : Order} (ho : e.order? slot = some o)
    (hf : o.finish = none) (code : FinishCode) (late : Bool) :
    (e.finishWaiting x slot code late).order? slot = some ({ o with reservation := 0 }.finished code) := by
  have decided := Engine.decideFinish_order? x ho hf code late
  cases hw : o.waiter with
  | none => rw [Engine.finishWaiting_of_noWaiter x ho hw, decided]; rfl
  | some c =>
    rw [Engine.finishWaiting_of_waiter x ho hw, (Engine.freeWaiter_onlyChannel x _ c slot).order?, decided]
    rfl

end Sys2Proof.Machine

namespace Sys2Proof.Machine

/-! ### Taking an action (R7) -/

/-- The first action is taken by its row where the intake is ready. -/
theorem State.takeAction_eq {s s1 : State} {row : Word → Bool} {w : Word} {rest : List Word}
    (active : s.front.active = true) (queue : s.front.actionQ = w :: rest) (hrow : row w = true)
    (ready : s.intakeReady = some s1) :
    s.takeAction row = some (w, { s1 with front := s1.front.popAction }) := by
  simp only [State.takeAction, queue, active, hrow, Bool.and_self, if_true, ready, Option.map_some]

/-- No action is taken where the intake is not ready. -/
theorem State.takeAction_of_notReady {s : State} (h : s.intakeReady = none) (row : Word → Bool) :
    s.takeAction row = none := by
  unfold State.takeAction
  split
  · rfl
  · simp [h]

theorem State.act_of_notReady {s : State} (h : s.intakeReady = none) (row : Word → Bool)
    (f : State → Word → State) : s.act row f = s := by
  rw [State.act, State.takeAction_of_notReady h]

/-- Waiting for the record of the action before changes nothing of the front. -/
theorem State.intakeReady_front {s s1 : State} (h : s.intakeReady = some s1) : s1.front = s.front :=
  (State.intakeReady_only h).front

/-- An action taken in RUN has its effect. -/
theorem State.act_run {s s1 : State} {row : Word → Bool} {w : Word} {rest : List Word} (run : s.front.ctl = .run)
    (queue : s.front.actionQ = w :: rest) (hrow : row w = true) (ready : s.intakeReady = some s1)
    (f : State → Word → State) : s.act row f = (f { s1 with front := s1.front.popAction } w).settle := by
  rw [State.act, State.takeAction_eq (s.front.active_iff.mpr (.inl run)) queue hrow ready]
  exact if_pos ((State.intakeReady_front ready).symm ▸ run)

/-- An action taken in DRAINING is answered NOT_RUNNING. -/
theorem State.act_draining {s s1 : State} {row : Word → Bool} {w : Word} {rest : List Word}
    (draining : s.front.ctl = .draining) (queue : s.front.actionQ = w :: rest) (hrow : row w = true)
    (ready : s.intakeReady = some s1) (f : State → Word → State) :
    s.act row f = ({ s1 with front := s1.front.popAction } : State).answer w .notRunning := by
  rw [State.act, State.takeAction_eq (s.front.active_iff.mpr (.inr draining)) queue hrow ready]
  refine if_neg fun h => ?_
  have : s.front.ctl = .run := State.intakeReady_front ready ▸ h
  rw [draining] at this
  cases this

theorem slotAction_of {code : Nat} {w : Word} (hc : actionCode w = code) (ho : actionOperand w ≤ 31) :
    slotAction code w = true := by
  simp [slotAction, hc, ho]

/-! ### The decision on a POST (R8 to R11, R17 to R19) -/

theorem Results.bare_immediate (f : OrderFields) : Results.bare .ok (immediateServed f) =
    { code := .ok, served := if f.kind = .detach then (if f.drive.side = .A then 1 else 2) else 0, sectorsDone := 0,
      retries := 0, missed := 0, retiredMet := 0, logged := 0, fail := none, runs := 0, missedRounds := 0 } := by
  have served : immediateServed f = if f.kind = .detach then (if f.drive.side = .A then 1 else 2) else 0 := by
    unfold immediateServed
    split
    · cases f.drive.side <;> rfl
    · rfl
  rw [served]
  rfl

/-- What a slot's read decides, the POST being in hand. -/
theorem execSlotReadComplete_eq {s s1 : State} {w : Word} {n : Notice} (hi : s.front.intake = .reading w)
    (hread : s.await (fun n => n == .slotRead) = some (n, s1)) (ws : List Word) : exec (.slotReadComplete ws) s =
      .next (if s1.front.ctl = .run then (s1.decidePost w ws).settle else s1.answer w .notRunning) := by
  show execSlotReadComplete ws s = _
  simp only [execSlotReadComplete, hi, hread]

theorem State.decidePost_notPosted (s : State) (w : Word) {ws : List Word} (h : (rawOrder ws).phase ≠ phasePosted) :
    s.decidePost w ws = s.answer w .notPosted := if_pos h

theorem State.decidePost_error {s : State} {ws : List Word} {code : FinishCode} (w : Word)
    (h : (rawOrder ws).phase = phasePosted) (hc : checkOrder s.front s.engine (rawOrder ws) = .error code) :
    s.decidePost w ws = State.closing
      { s with engine := (s.engine.finishDirect s.front (actionOperand w) (Results.bare code 0)
          (rawOrder ws).notify .refused) } w := by
  simp only [State.decidePost, h, ne_eq, not_true_eq_false, if_false, hc]

theorem State.decidePost_ok {s : State} {ws : List Word} {f : OrderFields} (w : Word)
    (h : (rawOrder ws).phase = phasePosted) (hc : checkOrder s.front s.engine (rawOrder ws) = .ok f) :
    s.decidePost w ws = if f.kind.immediate then
        State.closing
          { s with engine := ((s.engine.immediate s.front f).finishDirect s.front (actionOperand w)
              (Results.bare .ok (immediateServed f)) (rawOrder ws).notify .immediate) } w
      else State.answer { s with engine := s.engine.accept s.front (actionOperand w) f } w .taken := by
  simp only [State.decidePost, h, ne_eq, not_true_eq_false, if_false, hc]

theorem execSlotReadComplete_run {s s1 : State} {w : Word} {n : Notice} (hi : s.front.intake = .reading w)
    (hread : s.await (fun n => n == .slotRead) = some (n, s1)) (run : s.front.ctl = .run) (ws : List Word) :
    exec (.slotReadComplete ws) s = .next (s1.decidePost w ws).settle := by
  rw [execSlotReadComplete_eq hi hread, if_pos ((State.await_only hread).front.symm ▸ run)]

/-- Settles O22: a POST of a slot not held asks for its 16 words, and their arrival decides it. -/
theorem postIsTakenAndDecided : Obligations.PostIsTakenAndDecided := by
  constructor
  · intro s s1 w rest run queue code operand ready x base
    have post := State.act_run run queue (slotAction_of code operand) ready
    constructor
    · rintro ⟨o, ho⟩
      refine congrArg Host.Outcome.next ((post _).trans (congrArg State.settle ?_))
      exact if_pos (Option.isSome_iff_exists.mpr ⟨o, ho⟩)
    · intro ho
      refine congrArg Host.Outcome.next ((post _).trans (congrArg State.settle ?_))
      exact if_neg (by simp [ho])
  · intro s s1 w ws n hi hread x slot raw
    have decided := execSlotReadComplete_run hi hread
    refine ⟨fun h => ?_, fun run => ⟨fun h => ?_, fun h code hc => ?_, fun h f hc hk => ?_, fun h f hc hk => ?_⟩⟩
    · rw [execSlotReadComplete_eq hi hread, if_neg ((State.await_only hread).front.symm ▸ h)]
      rfl
    · rw [decided run, State.decidePost_notPosted s1 w h]
      rfl
    · rw [decided run, State.decidePost_error w h hc]
      rfl
    · rw [decided run, State.decidePost_ok w h hc, if_pos hk, Results.bare_immediate]
      rfl
    · rw [decided run, State.decidePost_ok w h hc, if_neg (by simp [hk])]
      rfl

/-! ### WITHDRAW and REPOST (R20 to R22) -/

theorem Engine.withdraw_notHeld (x : Front) {e : Engine} {slot : Nat}
    (h : ∀ o, e.order? slot = some o → o.finish ≠ none) : e.withdraw x slot = (e, .notHeld) := by
  unfold Engine.withdraw
  split
  · rfl
  · rename_i o ho
    exact if_pos (Option.isSome_iff_ne_none.mpr (h o ho))

theorem Engine.withdraw_waiting (x : Front) {e : Engine} {slot : Nat} {o : Order} (ho : e.order? slot = some o)
    (hf : o.finish = none) (hs : o.state ≠ .running) :
    e.withdraw x slot = (e.finishWaiting x slot .withdrawn false, .taken) := by
  simp only [Engine.withdraw, ho, hf, Option.isSome_none, Bool.false_eq_true, if_false, hs]

theorem Engine.withdraw_running (x : Front) {e : Engine} {slot : Nat} {o : Order} (ho : e.order? slot = some o)
    (hf : o.finish = none) (hs : o.state = .running) :
    e.withdraw x slot = ((e.updOrder slot fun o =>
      { o with withdrawMark := some (o.withdrawMark.getD .withdrawn) }).stopOrder x slot, .taken) := by
  simp only [Engine.withdraw, ho, hf, Option.isSome_none, Bool.false_eq_true, if_false, hs, if_true]

theorem Engine.repost_notHeld {e : Engine} {slot : Nat} (h : ∀ o, e.order? slot = some o → o.finish ≠ none) :
    e.repost slot = (e, .notHeld) := by
  unfold Engine.repost
  split
  · rfl
  · rename_i o ho
    exact if_pos (Option.isSome_iff_ne_none.mpr (h o ho))

theorem Engine.repost_held {e : Engine} {slot : Nat} {o : Order} (ho : e.order? slot = some o)
    (hf : o.finish = none) : e.repost slot = if o.fields.standing then
      (e.updOrder slot fun o => { o with changed := true }, .taken) else (e, .notStanding) := by
  simp only [Engine.repost, ho, hf, Option.isSome_none, Bool.false_eq_true, if_false]

theorem Engine.finishDecided_iff (e : Engine) (slot : Nat) :
    e.finishDecided slot = true ↔ ∃ o, e.order? slot = some o ∧ o.finish ≠ none := by
  simp [Engine.finishDecided, Option.any_eq_true, Option.isSome_iff_ne_none]

/-- A WITHDRAW that does not finish its order is answered at once. -/
theorem State.answerWithdraw_answered {s : State} {w : Word} {o : ActionOutcome}
    (h : o = .taken → s.engine.finishDecided (actionOperand w) = false) : s.answerWithdraw w o = s.answer w o :=
  if_neg fun k => by simp [h k.1] at k

/-- After a WITHDRAW that has finished its order the intake waits for the writes of the finish. -/
theorem State.answerWithdraw_finished {s : State} {w : Word}
    (h : s.engine.finishDecided (actionOperand w) = true) : s.answerWithdraw w .taken =
      { s with
        front := { s.front with intake := .finishing (actionOperand w) },
        engine := s.engine.recordAction s.front w .taken none } :=
  if_pos ⟨rfl, h⟩

/-- Settles O28: each action does what the roster does with it, and is answered. -/
theorem withdrawAndRepostAreTaken : Obligations.WithdrawAndRepostAreTaken := by
  intro s s1 w rest run queue operand ready x base slot answered finished
  constructor
  · intro code
    have withdrawn {e : Engine} {o : ActionOutcome} (h : s1.engine.withdraw x slot = (e, o)) :
        exec .withdraw s = .next
          (State.settle (State.answerWithdraw { s1 with front := x, engine := e } w o)) := by
      refine congrArg Host.Outcome.next ((State.act_run run queue (slotAction_of code operand) ready _).trans ?_)
      dsimp only
      rw [show s1.engine.withdraw s1.front.popAction (actionOperand w) = (e, o) from h]
      rfl
    have notHeld (h : ∀ o, s1.engine.order? slot = some o → o.finish ≠ none) :
        exec .withdraw s = .next (answered s1.engine 4) := by
      rw [withdrawn (Engine.withdraw_notHeld x h)]
      refine congrArg (fun s : State => Host.Outcome.next s.settle) ?_
      exact (State.answerWithdraw_answered fun h => by cases h).trans rfl
    refine ⟨fun ho => notHeld (by simp [ho]), fun o ho => ⟨fun hf => notHeld (by simpa [ho] using hf),
      fun hf hs => ?_, fun hf hs => ?_⟩⟩
    · have decided := Engine.finishWaiting_order? x ho hf .withdrawn false
      rw [withdrawn (Engine.withdraw_waiting x ho hf hs),
        State.answerWithdraw_finished ((Engine.finishDecided_iff _ _).mpr ⟨_, decided, Option.some_ne_none _⟩)]
      rfl
    · intro e
      have run := withdrawn (Engine.withdraw_running x ho hf hs)
      refine ⟨fun h => ?_, fun h => ?_⟩
      · have undecided : e.finishDecided slot = false := Bool.eq_false_of_not_eq_true fun k => by
          obtain ⟨o', ho', hf'⟩ := (Engine.finishDecided_iff _ _).mp k
          exact hf' (h o' ho')
        rw [run]
        refine congrArg (fun s : State => Host.Outcome.next s.settle) ?_
        exact (State.answerWithdraw_answered fun _ => undecided).trans rfl
      · rw [run, State.answerWithdraw_finished ((Engine.finishDecided_iff _ _).mpr h)]
        rfl
  · intro code
    have reposted {e : Engine} {o : ActionOutcome} (h : s1.engine.repost slot = (e, o)) :
        exec .repost s = .next (State.settle (State.answer { s1 with front := x, engine := e } w o)) := by
      refine congrArg Host.Outcome.next ((State.act_run run queue (slotAction_of code operand) ready _).trans ?_)
      dsimp only
      rw [show s1.engine.repost (actionOperand w) = (e, o) from h]
      rfl
    have notHeld (h : ∀ o, s1.engine.order? slot = some o → o.finish ≠ none) :
        exec .repost s = .next (answered s1.engine 4) := by
      rw [reposted (Engine.repost_notHeld h)]
      rfl
    refine ⟨fun ho => notHeld (by simp [ho]), fun o ho => ⟨fun hf => notHeld (by simpa [ho] using hf),
      fun hf hs => ?_, fun hf hs => ?_⟩⟩
    · rw [reposted ((Engine.repost_held ho hf).trans (if_neg (by simp [hs])))]
      rfl
    · rw [reposted ((Engine.repost_held ho hf).trans (if_pos hs))]
      rfl

end Sys2Proof.Machine

namespace Sys2Proof.Machine

/-! ### Sets of drives (R156) -/

theorem Drive.mem_all (d : Drive) : d ∈ Drive.all := by
  obtain ⟨c, p⟩ := d
  cases c <;> cases p <;> decide

/-- The set of drives is empty where its number is 0. -/
theorem maskNat_eq_zero (m : ByDrive Bool) : maskNat m = 0 ↔ ∀ d, m.drive d = false := by
  have term (d : Drive) : (if m.drive d then 2 ^ d.number else 0) = 0 ↔ m.drive d = false := by
    cases m.drive d <;> simp
  rw [maskNat, List.sum_eq_zero_iff]
  simp only [List.mem_map, forall_exists_index, and_imp, forall_apply_eq_imp_iff₂, term]
  exact ⟨fun h d => h d (Drive.mem_all d), fun h d _ => h d⟩

/-- The drives are listed in number order. -/
theorem Drive.all_sorted : Drive.all.Pairwise fun a b => a.number < b.number := by decide

/-- The lowest drive of a set that has one. -/
theorem nextDrive_lowest {m : ByDrive Bool} (h : ∃ d, m.drive d = true) : ∃ next, nextDrive m 0 = some next ∧
    m.drive next = true ∧ ∀ d, m.drive d = true → next.number ≤ d.number := by
  have found : ∃ next, nextDrive m 0 = some next := by
    obtain ⟨d, hd⟩ := h
    refine Option.isSome_iff_exists.mp ?_
    rw [nextDrive, List.find?_isSome]
    exact ⟨d, Drive.mem_all d, by simp [hd]⟩
  obtain ⟨next, hn⟩ := found
  obtain ⟨hm, before, after, hall, hnot⟩ := List.find?_eq_some_iff_append.mp hn
  refine ⟨next, hn, by simpa using hm, fun d hd => ?_⟩
  have sorted := hall ▸ Drive.all_sorted
  rcases List.mem_append.mp (hall ▸ Drive.mem_all d :  d ∈ before ++ next :: after) with hb | ha
  · simpa [hd] using hnot d hb
  · rcases List.mem_cons.mp ha with rfl | ha
    · exact le_rfl
    · exact le_of_lt ((List.pairwise_cons.mp (List.pairwise_append.mp sorted).2.1).1 d ha)

theorem surveyMask_drive (w : Word) (d : Drive) : (surveyMask w).drive d = w.getLsbD d.number := by
  obtain ⟨c, p⟩ := d
  cases c <;> cases p <;> rfl

/-- The drives of a survey action that are configured (R156). -/
theorem Engine.effectiveMask_drive (e : Engine) (w : Word) (d : Drive) :
    (e.effectiveMask w).drive d = (w.getLsbD d.number && decide ((e.drive d).state ≠ .unconfigured)) := by
  have term (d : Drive) : ((surveyMask w).drive d && !((e.drive d).state == .unconfigured)) =
      (w.getLsbD d.number && decide ((e.drive d).state ≠ .unconfigured)) := by
    rw [surveyMask_drive]
    by_cases h : (e.drive d).state = .unconfigured <;> simp [h]
  rw [← term]
  obtain ⟨c, p⟩ := d
  cases c <;> cases p <;> rfl

/-! ### The survey actions at the survey unit (R156, R159) -/

theorem Engine.takeSurvey_badMask (x : Front) {e : Engine} (m : SurveyMode) {w : Word}
    (h : ∀ d, (e.effectiveMask w).drive d = false) : e.takeSurvey x m w = (e, .badMask) := by
  unfold Engine.takeSurvey
  exact if_pos ((maskNat_eq_zero _).mpr h)

theorem Engine.takeSurvey_off (x : Front) {e : Engine} (m : SurveyMode) {w : Word}
    (h : ∃ d, (e.effectiveMask w).drive d = true) (off : e.survey.mode = .off) : e.takeSurvey x m w =
      (e.setSurvey x { e.survey with mode := m, mask := e.effectiveMask w }.beginPass, .taken) := by
  have some : ¬maskNat (e.effectiveMask w) = 0 := by
    simpa [maskNat_eq_zero] using h
  simp only [Engine.takeSurvey, some, if_false, off, if_true]

theorem Engine.takeSurvey_on (x : Front) {e : Engine} (m : SurveyMode) {w : Word}
    (h : ∃ d, (e.effectiveMask w).drive d = true) (on : e.survey.mode ≠ .off) : e.takeSurvey x m w =
      (e.setSurvey x { e.survey with request := some (m, e.effectiveMask w) }, .taken) := by
  have some : ¬maskNat (e.effectiveMask w) = 0 := by
    simpa [maskNat_eq_zero] using h
  simp only [Engine.takeSurvey, some, if_false, on]

/-! ### Which actions no row but BAD_ACTION takes (R7, R176) -/

theorem badActionWord_of_unknown {w : Word} (h : actionCode w = 0 ∨ 6 < actionCode w) :
    unknownCode w = true ∧ badActionWord w = true := by
  have unknown : unknownCode w = true := by simpa [unknownCode] using h
  exact ⟨unknown, by simp [badActionWord, unknown]⟩

theorem badActionWord_of_operand {w : Word} (h : 1 ≤ actionCode w) (h' : actionCode w ≤ 3)
    (ho : 31 < actionOperand w) : unknownCode w = false ∧ badActionWord w = true := by
  refine ⟨?_, by simp [badActionWord, h', ho]⟩
  have : ¬(actionCode w = 0 ∨ 6 < actionCode w) := by omega
  simpa [unknownCode] using this

/-- BAD_ACTION, its word taken. -/
theorem execBadAction_eq {s s1 : State} {w : Word} {rest : List Word} (active : s.front.active = true)
    (queue : s.front.actionQ = w :: rest) (hrow : badActionWord w = true) (ready : s.intakeReady = some s1) :
    exec .badAction s = .next (State.answer { s1 with front := s1.front.popAction } w
      (if s1.front.ctl = .run ∨ unknownCode w = true then .badAction else .notRunning)) := by
  show execBadAction s = _
  simp only [execBadAction, State.takeAction_eq active queue hrow ready]
  rfl

/-- Settles O30: each action does what the survey unit does with it and is answered; a word that names no action, or
one that comes in DRAINING, is answered at once; none is taken while the one before is in hand. -/
theorem otherActionsAreAnswered : Obligations.OtherActionsAreAnswered := by
  refine ⟨?_, ?_, ?_⟩
  · intro s s1 w rest run queue ready x v answered
    refine ⟨fun c m hc => ⟨s1.engine.effectiveMask w, s1.engine.effectiveMask_drive w, ?_⟩, fun code => ?_⟩
    · have taken {e : Engine} {o : ActionOutcome} (h : s1.engine.takeSurvey x m w = (e, o)) :
          exec c s = .next (answered e o) := by
        have answer (f : State → Word → State) (hf : f { s1 with front := x } w = { s1 with
            front := { x with intake := .recording }, engine := e.writeLastAction x w o }) (code : Nat)
            (hcode : actionCode w = code) : s.act (surveyAction code) f = answered e o :=
          (State.act_run run queue (by simpa [surveyAction] using hcode) ready f).trans (congrArg State.settle hf)
        simp only [List.mem_cons, List.not_mem_nil, or_false, Prod.mk.injEq] at hc
        rcases hc with ⟨rfl, rfl, hcode⟩ | ⟨rfl, rfl, hcode⟩
        · refine congrArg Host.Outcome.next (answer _ ?_ 4 hcode)
          dsimp only
          rw [h]
          rfl
        · refine congrArg Host.Outcome.next (answer _ ?_ 5 hcode)
          dsimp only
          rw [h]
          rfl
      refine ⟨fun h => taken (Engine.takeSurvey_badMask x m h), fun h off => ?_, fun h on =>
        taken (Engine.takeSurvey_on x m h on)⟩
      obtain ⟨next, hn, hm, least⟩ := nextDrive_lowest h
      refine ⟨next, hm, least, ?_⟩
      rw [taken (Engine.takeSurvey_off x m h off)]
      simp only [Survey.beginPass, hn]
      rfl
    · refine congrArg Host.Outcome.next
        ((State.act_run run queue (by simpa [surveyAction] using code) ready _).trans ?_)
      rfl
  · intro s s1 w rest queue ready x base answered
    have front := State.intakeReady_front ready
    refine ⟨fun ctl code => ?_, fun run h h' ho => ?_, fun draining => ?_⟩
    · obtain ⟨unknown, hrow⟩ := badActionWord_of_unknown code
      rw [execBadAction_eq (s.front.active_iff.mpr ctl) queue hrow ready, if_pos (.inr unknown)]
      rfl
    · obtain ⟨-, hrow⟩ := badActionWord_of_operand h h' ho
      rw [execBadAction_eq (s.front.active_iff.mpr (.inl run)) queue hrow ready, if_pos (.inl (front ▸ run))]
      rfl
    · have answer (row : Word → Bool) (hrow : row w = true) (f : State → Word → State) :
          (.next (s.act row f) : Result) = .next (answered 6) :=
        congrArg Host.Outcome.next (State.act_draining draining queue hrow ready f)
      refine ⟨fun code operand => answer _ (slotAction_of code operand) _,
        fun code operand => answer _ (slotAction_of code operand) _,
        fun code operand => answer _ (slotAction_of code operand) _,
        fun code => answer (surveyAction 4) (by simpa [surveyAction] using code) _,
        fun code => answer (surveyAction 5) (by simpa [surveyAction] using code) _,
        fun code => answer (surveyAction 6) (by simpa [surveyAction] using code) _, fun h h' ho => ?_⟩
      obtain ⟨unknown, hrow⟩ := badActionWord_of_operand h h' ho
      have out : ¬(s1.front.ctl = .run ∨ unknownCode w = true) := by simp [front, draining, unknown]
      rw [execBadAction_eq (s.front.active_iff.mpr (.inr draining)) queue hrow ready, if_neg out]
      rfl
  · intro s c hc h
    have notReady : s.intakeReady = none := by
      unfold State.intakeReady
      rcases h with ⟨w, h⟩ | ⟨w, h⟩ | ⟨slot, h⟩ | ⟨h, hawait⟩
      · rw [h]
      · rw [h]
      · rw [h]
      · rw [h]
        simp only [hawait, Option.map_none]
    have idle (row : Word → Bool) (f : State → Word → State) : (.next (s.act row f) : Result) = .next s :=
      congrArg Host.Outcome.next (State.act_of_notReady notReady row f)
    simp only [List.mem_cons, List.not_mem_nil, or_false] at hc
    rcases hc with rfl | rfl | rfl | rfl | rfl | rfl | rfl
    · exact idle _ _
    · exact idle _ _
    · exact idle _ _
    · exact idle _ _
    · exact idle _ _
    · exact idle _ _
    · show execBadAction s = _
      simp only [execBadAction, State.takeAction_of_notReady notReady]

end Sys2Proof.Machine

namespace Sys2Proof.Machine

/-! ### The results written at a finish (R24, R25) -/

theorem resultsRequest_eq (x : Front) (slot : Nat) (r : Results) : resultsRequest x slot r =
    { kind := .slotWrite,
      words :=
        let slotBase := x.areaBase.toNat * 256 + (0x240 + 32 * slot)
        let (cylinder, surface, sector) := match r.fail with
          | some p => (p.cylinder, p.surface, p.sector)
          | none => (0xFF, 0xFF, 0xFF)
        [{ addr := slotBase + 0x12, data := some (lohi r.code.code r.served) },
          { addr := slotBase + 0x14, data := some (BitVec.ofNat 16 r.sectorsDone) },
          { addr := slotBase + 0x16, data := some (lohi r.retries r.missed) },
          { addr := slotBase + 0x18, data := some (lohi r.retiredMet r.logged) },
          { addr := slotBase + 0x1A, data := some (lohi cylinder surface) },
          { addr := slotBase + 0x1C, data := some (lohi sector x.round.toNat) },
          { addr := slotBase + 0x1E, data := some (lohi r.runs r.missedRounds) }],
      notice := none } := by
  obtain ⟨code, served, sectorsDone, retries, missed, retiredMet, logged, fail, runs, missedRounds⟩ := r
  cases fail <;> simp [resultsRequest, areaWords, Front.area, slotOffset, Results.words, Nat.add_assoc]

theorem FinishCode.isMedia_iff (c : FinishCode) : c.isMedia = true ↔
    c = .sectorNotFound ∨ c = .idCheck ∨ c = .dataCheck ∨ c = .verifyFailed ∨ c = .retiredFound := by
  cases c <;> simp [FinishCode.isMedia]

/-! ### The writes of the held counts (R6) -/

/-- A drive's status record as it is written. -/
def statusRequest (x : Front) (e : Engine) (d : Drive) : Request :=
  { kind := .statusWrite, words := areaWords x ((e.drive d).words.zipIdx.map fun p => (statusOffset d + 2 * p.2, p.1)),
    notice := none }

theorem Engine.countDrive_drive_of_ne (x : Front) (e : Engine) (f : OrderFields) (g : Nat → Nat) {d d' : Drive}
    (h : d' ≠ d) : (e.countDrive x f g d).drive d' = e.drive d' := by
  unfold Engine.countDrive
  split
  · rw [Engine.updDrive_drive, if_neg h]
  · rfl

theorem Engine.countDrives_drive_of_notMem (x : Front) (e : Engine) (f : OrderFields) (g : Nat → Nat) {d : Drive}
    {l : List Drive} (h : d ∉ l) : (l.foldl (fun e d => e.countDrive x f g d) e).drive d = e.drive d := by
  induction l generalizing e with
  | nil => rfl
  | cons d' l ih =>
    rw [List.mem_cons, not_or] at h
    rw [List.foldl_cons, ih _ h.2, Engine.countDrive_drive_of_ne x e f g h.1]

/-- A drive that the order covers has its status record written with its new count (R6, R153). -/
theorem Engine.countDrive_port (x : Front) (e : Engine) (f : OrderFields) (g : Nat → Nat) (d : Drive)
    (hg : f.covers d = true → g (e.drive d).heldCount ≠ (e.drive d).heldCount) :
    (e.countDrive x f g d).port = { e.port with queue := (e.port.queue ++
      (if f.covers d = true then [statusRequest x (e.countDrive x f g d) d] else [])) } := by
  unfold Engine.countDrive
  by_cases hc : f.covers d = true
  · have reported : (e.drive d).reportable
        (x.relatch d { (e.drive d) with heldCount := g (e.drive d).heldCount }) = true := by
      simp [Knowledge.reportable, Front.relatch, Ne.symm (hg hc)]
    simp only [hc, if_true, Engine.updDrive, reported]
    rfl
  · simp [hc]

/-- The status records of the drives that the order covers, as the engine has them. -/
def statusRequests (x : Front) (e : Engine) (f : OrderFields) (l : List Drive) : List Request :=
  (l.filter fun d => f.covers d).map (statusRequest x e)

/-- One drive after the other has its count changed and its status record written. -/
theorem Engine.countDrives_port (x : Front) (e : Engine) (f : OrderFields) (g : Nat → Nat) {l : List Drive}
    (hn : l.Nodup) (hg : ∀ d ∈ l, f.covers d = true → g (e.drive d).heldCount ≠ (e.drive d).heldCount) :
    (l.foldl (fun e d => e.countDrive x f g d) e).port = { e.port with queue := (e.port.queue ++
      statusRequests x (l.foldl (fun e d => e.countDrive x f g d) e) f l) } := by
  induction l generalizing e with
  | nil => simp [statusRequests]
  | cons d l ih =>
    obtain ⟨hd, hl⟩ := List.nodup_cons.mp hn
    have other (d' : Drive) (h : d' ∈ l) : (e.countDrive x f g d).drive d' = e.drive d' :=
      Engine.countDrive_drive_of_ne x e f g fun k => hd (k ▸ h)
    have tail := ih (e.countDrive x f g d) hl fun d' h hc => by
      rw [other d' h]
      exact hg d' (List.mem_cons_of_mem _ h) hc
    have first := Engine.countDrive_port x e f g d (hg d List.mem_cons_self)
    have kept := Engine.countDrives_drive_of_notMem x (e.countDrive x f g d) f g hd
    rw [List.foldl_cons, tail, first]
    have status : statusRequest x (l.foldl (fun e d => e.countDrive x f g d) (e.countDrive x f g d)) d =
        statusRequest x (e.countDrive x f g d) d := by rw [statusRequest, statusRequest, kept]
    by_cases hc : f.covers d = true
    · simp [statusRequests, hc, status]
    · simp [statusRequests, hc]

/-- The writes of the held counts: the desk's, the total, and the status record of each drive covered (R6). -/
theorem Engine.writeHeld_port (x : Front) (e : Engine) (f : OrderFields) (g : Nat → Nat)
    (hg : ∀ d, f.covers d = true → g (e.drive d).heldCount ≠ (e.drive d).heldCount) :
    (e.writeHeld x f g).port = { e.port with queue := (e.port.queue ++
      ([{ kind := .deskWrite,
          words := [{ addr := x.areaBase.toNat * 256 + (0x080 + 8 * f.desk + 6),
                      data := some (BitVec.ofNat 16 ((e.writeHeld x f g).deskHeld.getD f.desk 0)) }],
          notice := none },
        { kind := .headerWrite,
          words := [{ addr := x.areaBase.toNat * 256 + 0x1C, data := some (BitVec.ofNat 16 e.held.length) }],
          notice := none }] ++ statusRequests x (e.writeHeld x f g) f Drive.all)) } := by
  have counted := Engine.countDrives_port x ((({ e with
    deskHeld := e.deskHeld.set f.desk (g (e.deskHeld.getD f.desk 0)) } : Engine).writeDesk x f.desk).writeTotal x) f g
    (l := Drive.all) (by decide) fun d _ => hg d
  rw [Engine.writeHeld_deskHeld]
  refine counted.trans (congrArg (fun q => { e.port with queue := q }) ?_)
  exact (congrArg (· ++ statusRequests x (e.writeHeld x f g) f Drive.all) (List.append_assoc _ _ _)).trans
    (List.append_assoc _ _ _)

theorem statusRequests_eq (x : Front) (e : Engine) (f : OrderFields) (l : List Drive) : statusRequests x e f l =
    (l.filter fun d => f.covers d).map fun d =>
      { kind := .statusWrite,
        words := (e.drive d).words.zipIdx.map fun p =>
          { addr := x.areaBase.toNat * 256 + (0x100 + 16 * d.number + 2 * p.2), data := some p.1 },
        notice := none } := by
  refine List.map_congr_left fun d _ => ?_
  simp only [statusRequest, areaWords, List.map_map]
  rfl

/-- Settles O29: the requests an operation adds to the queue, one after the other. -/
theorem finishesAndCountsAreWritten : Obligations.FinishesAndCountsAreWritten := by
  intro x e slot base slotBase phase results counts statuses issued
  have results_eq (r : Results) : resultsRequest x slot r = results r := resultsRequest_eq x slot r
  have statuses_eq (e : Engine) (f : OrderFields) : statusRequests x e f Drive.all = statuses e f :=
    statusRequests_eq x e f Drive.all
  refine ⟨fun r n notice => ⟨?_, rfl⟩, fun f => ?_, fun o ho hn => ?_⟩
  · rw [← results_eq]
    rfl
  · have written := Engine.writeHeld_port x
      (({ e with held := e.held ++ [Order.accepted e slot f] } : Engine).writePhase x slot (acceptedPhase f) none) f
      (fun n => n + 1) fun d _ => by simp
    rw [statuses_eq] at written
    refine written.trans (congrArg (fun q => { e.port with queue := q }) ?_)
    have total : (e.held ++ [Order.accepted e slot f]).length = e.held.length + 1 := List.length_append
    have accepted : phaseRequest x slot (acceptedPhase f) none = phase (if f.standing then 4 else 2) none := by
      unfold acceptedPhase
      cases f.standing <;> rfl
    rw [← accepted, ← total]
    exact List.append_assoc _ [phaseRequest x slot (acceptedPhase f) none] _
  · intro returned shown became
    have shown_eq (late : Bool) (code : FinishCode) :
        (if late then o.clearRun else o).results code = shown late code := by
      have media (c : FinishCode) := FinishCode.isMedia_iff c
      cases late
      · simp only [Order.results, shown, Bool.false_eq_true, if_false, servedCode]
        cases o.pendingCode with
        | none => rfl
        | some cp =>
          by_cases hc : cp.1 = code
          · subst hc
            simp [media]
          · simp [hc]
      · simp only [Order.results, shown, if_true, Order.clearRun, Bool.true_eq_false, false_and, if_false]
        cases o.pendingCode <;> rfl
    have became_eq (f : Order → Order) (rs : List Request) : e.became x slot o f rs = became f rs := rfl
    refine ⟨fun code late hf => ⟨?_, fun hw => Engine.finishWaiting_of_noWaiter x ho hw code late,
      fun c hw hc => ?_⟩, fun code => ?_, fun hf hg => ?_⟩
    · rw [Engine.decideFinish_eq x ho hn hf, results_eq, shown_eq]
      exact became_eq _ _
    · rw [Engine.finishWaiting_of_waiter x ho hw]
      refine Engine.freeWaiter_order x ?_
      rw [Engine.decideFinish_eq x ho hn hf]
      exact hc
    · rw [Engine.backToStanding_eq x ho hn, results_eq, ← shown_eq false]
      exact became_eq _ _
    · obtain ⟨hm, rfl⟩ := Engine.order?_mem ho
      have written := Engine.writeHeld_port x
        ({ e with held := e.held.filter fun o' => !(o'.slot == o.slot) }.dropClaims o.slot) o.fields
        (fun n => n - 1) fun d hd => by
          have : 0 < (e.drive d).heldCount := hg d hd
          show (e.drive d).heldCount - 1 ≠ (e.drive d).heldCount
          omega
      have length : (e.held.filter fun o' => !(o'.slot == o.slot)).length = e.held.length - 1 := by
        have := (perm_cons_filter_slot hn hm).length_eq
        rw [List.length_cons] at this
        omega
      rw [← Engine.leaveList_eq x ho (Option.isSome_iff_ne_none.mpr hf), statuses_eq] at written
      rw [← length]
      exact written

end Sys2Proof.Machine

namespace Sys2Proof.Machine

/-! ### The record and the counts of an accepted order (R5, R6, R18) -/

theorem Engine.writeHeld_only (x : Front) (e : Engine) (f : OrderFields) (g : Nat → Nat) :
    (e.writeHeld x f g).held = e.held ∧ (e.writeHeld x f g).log = e.log ∧
      (e.writeHeld x f g).channels = e.channels ∧ (e.writeHeld x f g).pairs = e.pairs := by
  have one (e : Engine) (d : Drive) : (e.countDrive x f g d).held = e.held ∧ (e.countDrive x f g d).log = e.log ∧
      (e.countDrive x f g d).channels = e.channels ∧ (e.countDrive x f g d).pairs = e.pairs := by
    unfold Engine.countDrive Engine.updDrive
    dsimp only
    split
    · split <;> exact ⟨rfl, rfl, rfl, rfl⟩
    · exact ⟨rfl, rfl, rfl, rfl⟩
  have all (l : List Drive) (e : Engine) : let e' := l.foldl (fun e d => e.countDrive x f g d) e
      e'.held = e.held ∧ e'.log = e.log ∧ e'.channels = e.channels ∧ e'.pairs = e.pairs := by
    induction l generalizing e with
    | nil => exact ⟨rfl, rfl, rfl, rfl⟩
    | cons d l ih =>
      obtain ⟨held, log, channels, pairs⟩ := ih (e.countDrive x f g d)
      obtain ⟨held', log', channels', pairs'⟩ := one e d
      exact ⟨held.trans held', log.trans log', channels.trans channels', pairs.trans pairs'⟩
  exact all Drive.all _

theorem freshProgress_getD (c : Side) (i : Nat) : (freshProgress.get c).getD i .notBegun = .notBegun := by
  have fresh : (List.replicate 32 Entry.notBegun).getD i .notBegun = .notBegun := by
    rw [List.getD_eq_getElem?_getD, List.getElem?_replicate]
    split <;> rfl
  cases c <;> exact fresh

/-- Settles O23: the order is added behind the others, and each count that it counts for is 1 higher. -/
theorem acceptedOrderJoinsTheTail : Obligations.AcceptedOrderJoinsTheTail := by
  intro x e slot f hdesk
  let e1 : Engine := ({ e with held := e.held ++ [Order.accepted e slot f] }).writePhase x slot (acceptedPhase f) none
  obtain ⟨held, log, channels, pairs⟩ := Engine.writeHeld_only x e1 f fun n => n + 1
  have deskHeld : (e.accept x slot f).deskHeld = e.deskHeld.set f.desk (e.deskHeld.getD f.desk 0 + 1) :=
    Engine.writeHeld_deskHeld x e1 f fun n => n + 1
  refine ⟨⟨Order.accepted e slot f, held, rfl, rfl, rfl, rfl, rfl, rfl, rfl, rfl, rfl, rfl, rfl, rfl, rfl, rfl, rfl,
    freshProgress_getD, fun c => ?_⟩, fun k => ?_, e.accept_count x slot f, log, channels, pairs⟩
  · cases c <;> rfl
  · rw [deskHeld]
    by_cases hk : k = f.desk
    · subst hk
      simp [hdesk]
    · simp [List.getD_eq_getElem?_getD, hk, Ne.symm hk]

/-! ### What follows a completed write (R24, R26, R98, R154, R159) -/

/-- The DONE bit of a slot is set, and its notify-pending bit takes the NOTIFY flag (R26). -/
theorem Front.setDone_getLsbD (x : Front) (slot : Nat) (notify : Bool) {k : Nat} (hk : k < 32) :
    (x.setDone slot notify).done.getLsbD k = (x.done.getLsbD k || decide (k = slot)) ∧
    (x.setDone slot notify).notify.getLsbD k = if k = slot then notify else x.notify.getLsbD k := by
  have bit : (BitVec.twoPow 32 slot).getLsbD k = decide (k = slot) := by
    simp [hk, eq_comm]
  refine ⟨by simp only [Front.setDone, BitVec.getLsbD_or, bit], ?_⟩
  by_cases h : k = slot
  · subst h
    cases notify <;> simp [Front.setDone, hk]
  · cases notify <;> simp [Front.setDone, hk, h]

/-- DONE_BIT_SET, its notice at hand. -/
theorem execDoneBitSet_eq {s s1 : State} {slot : Nat} {notify late : Bool} {how : DoneHow}
    (h : s.await Notice.isDoneBit = some (.doneBit slot notify how late, s1)) :
    let t := State.afterDone { s1 with front := s1.front.setDone slot notify } slot how
    exec .doneBitSet s = .next (State.settle { s1 with
      front := t.front, engine := if late then t.engine.lateDone else t.engine }) := by
  have rest (s : State) : (s.afterDone slot how).pending = s.pending ∧ (s.afterDone slot how).mem = s.mem := by
    have answered (o : ActionOutcome) :
        (s.answerClosing o).pending = s.pending ∧ (s.answerClosing o).mem = s.mem := by
      unfold State.answerClosing
      split <;> exact ⟨rfl, rfl⟩
    cases how with
    | leaves =>
      dsimp only [State.afterDone, State.orderLeaves]
      split <;> exact ⟨rfl, rfl⟩
    | stays => exact ⟨rfl, rfl⟩
    | refused => exact answered _
    | immediate => exact answered _
  intro t
  obtain ⟨pending, mem⟩ := rest { s1 with front := s1.front.setDone slot notify }
  have same : t = { s1 with front := t.front, engine := t.engine } := by
    rw [← (show t.pending = s1.pending from pending), ← (show t.mem = s1.mem from mem)]
  show execDoneBitSet s = _
  simp only [execDoneBitSet, h]
  cases late
  · exact congrArg (fun s : State => Host.Outcome.next s.settle) same
  · exact congrArg (fun s : State => Host.Outcome.next (State.settle { s with engine := t.engine.lateDone })) same

/-- The front of a state whose order leaves. -/
theorem State.orderLeaves_front (s : State) (slot : Nat) : (s.orderLeaves slot).front =
    { s.front with intake := if s.front.intake = .finishing slot then .recording else s.front.intake } := by
  unfold State.orderLeaves
  dsimp only
  split <;> rfl

/-- The engine of a state whose order leaves, beside the port. -/
theorem State.orderLeaves_engine_eq (s : State) (slot : Nat) : (s.orderLeaves slot).engine =
    if s.front.intake = .finishing slot then (s.engine.leaveList s.front slot).tellLast .lastAction
    else s.engine.leaveList s.front slot := by
  unfold State.orderLeaves
  dsimp only
  split <;> rfl

theorem State.answerClosing_of_closing {s : State} {w : Word} (h : s.front.intake = .closing w) (o : ActionOutcome) :
    s.answerClosing o = s.answer w o := by
  simp only [State.answerClosing, h, Intake.closingWord?]

theorem State.answerClosing_front (s : State) (o : ActionOutcome) :
    (s.answerClosing o).front = { s.front with intake := (s.answerClosing o).front.intake } := by
  unfold State.answerClosing
  split <;> rfl

/-- What follows a DONE bit changes no more of the front than the intake. -/
theorem State.afterDone_front (s : State) (slot : Nat) (how : DoneHow) :
    (s.afterDone slot how).front = { s.front with intake := (s.afterDone slot how).front.intake } := by
  cases how with
  | leaves => exact (s.orderLeaves_front slot).trans (by rw [State.afterDone, s.orderLeaves_front slot])
  | stays => rfl
  | refused => exact s.answerClosing_front _
  | immediate => exact s.answerClosing_front _

/-- The request at the tail of the queue is to be told. -/
theorem Engine.tellLast_notice {e : Engine} (n : Notice) (h : e.port.queue ≠ []) :
    (e.tellLast n).port.queue.getLast?.bind Request.notice = some n := by
  have last : (e.tellLast n).port.queue = e.port.queue.dropLast ++
      [{ e.port.queue.getLast h with notice := some n }] := by
    simp [Engine.tellLast, List.getLast?_eq_some_getLast h]
  rw [last, List.getLast?_append]
  rfl

/-- When the counts have been written the queue is not empty. -/
theorem Engine.writeHeld_queue_ne_nil (x : Front) (e : Engine) (f : OrderFields) (g : Nat → Nat) :
    (e.writeHeld x f g).port.queue ≠ [] := by
  let e1 := (({ e with deskHeld := e.deskHeld.set f.desk (g (e.deskHeld.getD f.desk 0)) } : Engine).writeDesk x
    f.desk).writeTotal x
  have kept : e1.Keeps (e.writeHeld x f g) := Engine.Keeps.foldl _ _ (fun _ d h => h.countDrive f g d) (.refl e1)
  have issued : e1.port.queue ≠ [] := List.append_ne_nil_of_right_ne_nil _ (List.cons_ne_nil _ _)
  exact fun h => issued (List.prefix_nil.mp (h ▸ kept.queue))

/-- Settles O35: the completion that a notice tells sets its bit; the DONE bit of a finish lets its order leave. -/
theorem bitsFollowTheirWrites : Obligations.BitsFollowTheirWrites := by
  refine ⟨fun s s1 slot notify late how h => ?_, fun s s1 n d h => ?_, fun s s1 n h => ?_, fun s s1 n h => ?_,
    fun e n rest h => ⟨fun hn => ?_, fun hn => ?_⟩⟩
  · let s2 : State := { s1 with front := s1.front.setDone slot notify }
    let t := s2.afterDone slot how
    have front : t.front = { s2.front with intake := t.front.intake } := s2.afterDone_front slot how
    have done : t.front.done = s2.front.done := by rw [front]
    have told : t.front.notify = s2.front.notify := by rw [front]
    refine ⟨t.front, t.engine, execDoneBitSet_eq h, ?_, fun k hk => ?_, ?_, ?_, fun w hw => ⟨?_, ?_⟩⟩
    · rw [done, told, front]
      rfl
    · rw [done, told]
      exact s1.front.setDone_getLsbD slot notify hk
    · rintro rfl
      exact ⟨rfl, rfl⟩
    · rintro rfl
      have intake : t.front.intake =
          if s1.front.intake = .finishing slot then .recording else s1.front.intake :=
        congrArg Front.intake (s2.orderLeaves_front slot)
      refine ⟨intake, fun o ho hf => ?_⟩
      replace hf : o.finish.isSome = true := Option.isSome_iff_ne_none.mpr hf
      have left := Engine.leaveList_eq s2.front ho hf
      have same : t.engine = if s1.front.intake = .finishing slot then
          (s1.engine.leaveList s2.front slot).tellLast .lastAction else s1.engine.leaveList s2.front slot :=
        s2.orderLeaves_engine_eq slot
      have held : t.engine.held = (s1.engine.leaveList s2.front slot).held := by rw [same]; split <;> rfl
      have desks : t.engine.deskHeld = (s1.engine.leaveList s2.front slot).deskHeld := by rw [same]; split <;> rfl
      refine ⟨?_, ?_, fun d => ?_, fun hi => ?_⟩
      · rw [held, left, (Engine.writeHeld_only s2.front _ o.fields fun n => n - 1).1]
        rfl
      · rw [desks, left, Engine.writeHeld_deskHeld]
        rfl
      · rw [← Engine.leaveList_count s2.front ho hf]
        exact (s2.orderLeaves_engine slot).counts d
      · rw [same, if_pos hi]
        refine Engine.tellLast_notice _ ?_
        rw [left]
        exact Engine.writeHeld_queue_ne_nil s2.front _ _ _
    · rintro rfl
      have closing : t = s2.answer w .refused := State.answerClosing_of_closing (s := s2) hw .refused
      rw [closing]
      exact ⟨rfl, rfl⟩
    · rintro rfl
      have closing : t = s2.answer w .taken := State.answerClosing_of_closing (s := s2) hw .taken
      rw [closing]
      exact ⟨rfl, rfl⟩
  · show execDriveAttention d s = _
    simp only [execDriveAttention, h]
    rfl
  · show execSurveyDone s = _
    simp only [execSurveyDone, h]
    rfl
  · show execConfigError s = _
    simp only [execConfigError, h]
    rfl
  · have many : ¬n ≤ 1 := by omega
    simp only [Engine.lateDone, h, many, if_false]
  · subst hn
    simp only [Engine.lateDone, h, le_refl, if_true]
    rfl

end Sys2Proof.Machine

namespace Sys2Proof.Machine

/-! ### The access on the bus (R171) -/

/-- A state that is reached already needs no grant. -/
theorem State.serveUntil_of {p : State → Bool} {s : State} (h : p s = true) (n : Nat) : s.serveUntil p n = s := by
  cases n with
  | zero => rfl
  | succ n => exact if_pos h

/-- One grant reaches the state. -/
theorem State.serveUntil_grant {p : State → Bool} {s : State} (h : p s = false) (h' : p s.grant = true) {n : Nat}
    (hn : 0 < n) : s.serveUntil p n = s.grant := by
  obtain ⟨m, rfl⟩ := Nat.exists_eq_succ_of_ne_zero (Nat.ne_of_gt hn)
  exact (if_neg (by simp [h])).trans (State.serveUntil_of h' m)

/-- The port with the channel's word on the bus. -/
def Port.onWord (p : Port) (c : Side) : Port := { p with inProgress := some (.word c), lastWord := c }

/-- A port at rest gives the channel the bus, if the other waits for none or was served last. -/
theorem State.grant_word {s : State} {c : Side} (rest : s.engine.port.inProgress = none)
    (waits : (s.engine.chan c).wordWaiting = true)
    (next : (s.engine.chan c.other).wordWaiting = false ∨ s.engine.port.lastWord = c.other) :
    s.grant = { s with engine := { s.engine with port := s.engine.port.onWord c } } := by
  have current : s.completeCurrent = s := by
    unfold State.completeCurrent
    rw [rest]
  have word : s.engine.nextWord? = some c := by
    unfold Engine.nextWord?
    cases c with
    | A =>
      rw [waits]
      rcases next with h | h
      · rw [show (s.engine.chan .B).wordWaiting = false from h]
      · cases (s.engine.chan .B).wordWaiting
        · rfl
        · exact congrArg (fun c : Side => some c.other) h
    | B =>
      rw [waits]
      rcases next with h | h
      · rw [show (s.engine.chan .A).wordWaiting = false from h]
      · cases (s.engine.chan .A).wordWaiting
        · rfl
        · exact congrArg (fun c : Side => some c.other) h
  unfold State.grant Engine.arbitrate
  dsimp only
  rw [current, word]
  rfl

theorem Channel.wordWaiting_of_transfer? {ch : Channel} {t : Transfer} (h : ch.transfer? = some t) :
    ch.wordWaiting = true :=
  List.any_eq_true.mpr ⟨t, List.mem_of_find?_eq_some h, by simpa using List.find?_some h⟩

/-- A channel with a word waiting has words left. -/
theorem Channel.wordsLeft_pos {ch : Channel} {t : Transfer} (h : ch.transfer? = some t) : 0 < ch.wordsLeft := by
  have left : t.moved < t.words := by simpa using List.find?_some h
  have : t.words - t.moved ≤ ch.wordsLeft :=
    List.single_le_sum (by simp) _ (List.mem_map_of_mem (List.mem_of_find?_eq_some h))
  omega

theorem State.accessesLeft_pos {s : State} {c : Side} {t : Transfer} (h : (s.engine.chan c).transfer? = some t) :
    0 < s.accessesLeft := by
  have := Channel.wordsLeft_pos h
  unfold State.accessesLeft
  cases c <;> omega

/-- The channel's word comes onto the bus, if it is not there already. -/
theorem State.serveTo_word {s : State} {c : Side} {t : Transfer} (ht : (s.engine.chan c).transfer? = some t)
    (h : s.engine.port.inProgress = some (.word c) ∨ (s.engine.port.inProgress = none ∧
      ((s.engine.chan c.other).wordWaiting = false ∨ s.engine.port.lastWord = c.other))) :
    (s.serveTo (State.onWord c)).portIdle = { s with engine := { s.engine with port := { s.engine.port with
      inProgress := none,
      lastWord := if s.engine.port.inProgress = none then c else s.engine.port.lastWord } } } := by
  rcases h with h | ⟨rest, next⟩
  · have on : State.onWord c s = true := by simp [State.onWord, h]
    rw [State.serveTo, State.serveUntil_of on, h]
    rfl
  · have granted := State.grant_word rest (Channel.wordWaiting_of_transfer? ht) next
    have off : State.onWord c s = false := by simp [State.onWord, rest]
    have on : State.onWord c s.grant = true := by
      rw [granted]
      simp [State.onWord, Port.onWord]
    rw [State.serveTo, State.serveUntil_grant off on (State.accessesLeft_pos ht), granted, rest]
    rfl

/-! ### A bus error on a record (R172) -/

theorem Front.active_eq_decide (x : Front) : x.active = decide (x.ctl = .run ∨ x.ctl = .draining) := by
  unfold Front.active
  cases x.ctl <;> rfl

/-- BUS_ERROR_RECORD, with the request's access on the bus. -/
theorem execBusErrorRecord_eq {s : State} {r : Request} {rest : List Request} {word : Nat}
    (hq : s.engine.port.queue = r :: rest) (hw : word < r.words.length)
    (hp : s.engine.port.inProgress = some .record) : exec (.busErrorRecord word) s = .next
      (if s.front.ctl = .fault then
        { s with
          mem := memAccesses s.mem (r.words.take word),
          engine := { s.engine with port := s.engine.port.discard } }
      else
        { s with
          front := s.front.fault,
          mem := memAccesses s.mem (r.words.take word),
          engine := s.engine.fault s.front.fault r word }) := by
  have on : s.serveTo State.onRecord = s := State.serveUntil_of (by simp [State.onRecord, hp]) _
  show execBusErrorRecord word s = _
  simp only [execBusErrorRecord, hq, hw, if_true, on]

theorem Request.faultAddress_eq {r : Request} {word : Nat} {failed : Access} (h : r.words[word]? = some failed) :
    r.faultAddress word = failed.addr % 0x100000 := by
  simp only [Request.faultAddress, h]
  rfl

/-! ### A bus error on a buffer (R141) -/

/-- A change of a channel that keeps its order keeps the order found for it. -/
theorem Engine.orderOf?_updChan {e : Engine} {c : Side} {f : Channel → Channel}
    (h : (f (e.chan c)).order = (e.chan c).order) : (e.updChan c f).orderOf? c = e.orderOf? c := by
  unfold Engine.orderOf?
  rw [Engine.chan_updChan, h]
  rfl

/-- The engine before the failure of a buffer access is recorded. -/
def Engine.accessLost (e : Engine) (c : Side) (t : Transfer) (o : Order) : Engine :=
  let e : Engine := e.updChan c fun ch => ch.endTransfer t { ch.buffers.get t.buf with use := .free }
  if t.toHost then (e.mark o.slot c t.pos .notBegun).updItem c t.pos fun it => { it with st := .withdrawn } else e

theorem Engine.bufferError_eq (x : Front) {e : Engine} {c : Side} {t : Transfer} {o : Order}
    (ho : e.orderOf? c = some o) : e.bufferError x c t =
      (e.accessLost c t o).setPending x o.slot .memoryError Place.origin := by
  have same := Engine.orderOf?_updChan (e := e) (c := c)
    (f := fun ch => ch.endTransfer t { ch.buffers.get t.buf with use := .free }) rfl
  unfold Engine.bufferError
  dsimp only
  rw [same, ho]
  rfl

/-- A failure becomes the order's pending code where it has none, and its channels are asked to stop. -/
theorem Engine.setPending_eq (x : Front) (e : Engine) (slot : Nat) (code : FinishCode) (pl : Place) :
    e.setPending x slot code pl =
      (e.updOrder slot fun o => { o with pendingCode := o.pendingCode.or (some (code, pl)) }).stopOrder x slot := by
  have first (o : Order) : (if o.pendingCode.isSome then o.pendingCode else some (code, pl)) =
      o.pendingCode.or (some (code, pl)) := by cases o.pendingCode <;> rfl
  simp only [Engine.setPending, first]

theorem Engine.updItem_chan (e : Engine) (c : Side) (pos : Nat) (f : Item → Item) :
    ∃ run, (e.updItem c pos f).chan c = { e.chan c with run := run } := ⟨_, Engine.chan_updChan e c _⟩

theorem Engine.mark_chan (e : Engine) (slot : Nat) (c : Side) (pos : Nat) (v : Entry) (c' : Side) :
    (e.mark slot c pos v).chan c' = e.chan c' := rfl

/-- The channel that lost an access has ended its transfer; the items of its run apart it is as it was. -/
theorem Engine.accessLost_chan (e : Engine) (c : Side) (t : Transfer) (o : Order) : ∃ run,
    (e.accessLost c t o).chan c =
      { (e.chan c).endTransfer t { (e.chan c).buffers.get t.buf with use := .free } with run := run } := by
  unfold Engine.accessLost
  dsimp only
  split
  · obtain ⟨run, h⟩ := Engine.updItem_chan ((e.updChan c fun ch =>
      ch.endTransfer t { ch.buffers.get t.buf with use := .free }).mark o.slot c t.pos .notBegun) c t.pos
      fun it => { it with st := .withdrawn }
    refine ⟨run, h.trans ?_⟩
    rw [Engine.mark_chan, Engine.chan_updChan]
  · exact ⟨(e.chan c).run, Engine.chan_updChan e c _⟩

theorem Engine.accessLost_other (e : Engine) (c : Side) (t : Transfer) (o : Order) :
    (e.accessLost c t o).chan c.other = e.chan c.other := by
  unfold Engine.accessLost
  dsimp only
  split
  · refine (Engine.chan_updChan_other _ c _).trans ?_
    rw [Engine.mark_chan, Engine.chan_updChan_other]
  · exact Engine.chan_updChan_other e c _

/-- A copy that was lost leaves its sector not begun (R141). -/
theorem Engine.accessLost_held (e : Engine) (c : Side) (t : Transfer) (o : Order) : (e.accessLost c t o).held =
    if t.toHost then e.held.map fun o' => if o'.slot == o.slot then o'.setEntry c t.pos .notBegun else o'
    else e.held := by
  unfold Engine.accessLost
  split <;> rfl

theorem Engine.accessLost_rest (e : Engine) (c : Side) (t : Transfer) (o : Order) :
    (e.accessLost c t o).log = e.log ∧ (e.accessLost c t o).drives = e.drives ∧
      (e.accessLost c t o).port = e.port := by
  unfold Engine.accessLost
  split <;> exact ⟨rfl, rfl, rfl⟩

/-- MEMORY_ERROR, with the channel's word on the bus or next to go. -/
theorem execMemoryError_eq {s : State} {c : Side} {t : Transfer} (hc : s.front.ctl = .run ∨ s.front.ctl = .draining)
    (ht : (s.engine.chan c).transfer? = some t) : exec (.memoryError c) s = .next
      ((s.serveTo (State.onWord c)).portIdle.engineEvent fun x e => e.bufferError x c t) := by
  have active := s.front.active_iff.mpr hc
  show execMemoryError c s = _
  simp only [execMemoryError, active, ht]

/-- Settles O33: the access on the bus is the one that fails; a record's ends in FAULT, a buffer's ends its transfer
and becomes the order's pending code. -/
theorem busErrorsEnterFaultOrEndTheOrder : Obligations.BusErrorsEnterFaultOrEndTheOrder := by
  refine ⟨fun s r rest word failed hq hw hp => ?_, fun s c t o hc hbus ht ho => ?_⟩
  · intro base a header
    obtain ⟨hlt, -⟩ := List.getElem?_eq_some_iff.mp hw
    have event := execBusErrorRecord_eq hq hlt hp
    refine ⟨fun hctl => ⟨⟨s.engine.channels.a.fault, s.engine.channels.b.fault⟩, ?_, fun c => ?_⟩, fun hctl => ?_⟩
    · rw [event, if_neg hctl]
      have address : r.faultAddress word = a := Request.faultAddress_eq hw
      have words : areaWords s.front.fault (faultWords r word) = header.words := by
        simp only [faultWords, address, areaWords, Front.area, List.map_cons, List.map_nil, Nat.add_zero, header]
        exact rfl
      have bit : BitVec.twoPow 10 attnFault = 0x200#10 := by decide
      rw [Engine.fault, Engine.headerWrite, words, Engine.setAttention, bit, Front.fault, Front.active_eq_decide]
      rfl
    · cases c <;> exact ⟨rfl, rfl, rfl, rfl, rfl, rfl, rfl, rfl⟩
    · rw [event, if_pos hctl]
      rfl
  · intro nowhere withCode
    let e0 : Engine := { s.engine with port := { s.engine.port with
      inProgress := none,
      lastWord := if s.engine.port.inProgress = none then c else s.engine.port.lastWord } }
    obtain ⟨run, chan⟩ := e0.accessLost_chan c t o
    obtain ⟨log, drives, port⟩ := e0.accessLost_rest c t o
    refine ⟨e0.accessLost c t o, ?_, ?_, ?_, e0.accessLost_other c t o, fun hh => ?_, fun hh => ?_, log, drives, port⟩
    · have error : e0.bufferError s.front c t =
          ((e0.accessLost c t o).updOrder o.slot withCode).stopOrder s.front o.slot :=
        (Engine.bufferError_eq s.front (e := e0) ho).trans (Engine.setPending_eq _ _ _ _ _)
      rw [execMemoryError_eq hc ht, State.serveTo_word ht hbus, ← error]
      exact congrArg Host.Outcome.next (if_pos (s.front.active_iff.mpr hc))
    · rw [chan]
      rfl
    · rw [chan]
      simp [Channel.endTransfer, Channel.setBuffer]
    · rw [e0.accessLost_held, hh]
      rfl
    · rw [e0.accessLost_held, hh]
      rfl

end Sys2Proof.Machine

namespace Sys2Proof.Machine

/-! ### What the port's grants leave of the channels (R171) -/

/-- A transfer, whatever of it has moved. -/
def Transfer.key (t : Transfer) : Transfer := { t with moved := 0 }

/-- The channel's transfers have had words moved at most. -/
def Channel.WordsMoved (ch ch' : Channel) : Prop :=
  ∃ ts, ch' = { ch with transfers := ts } ∧ ts.map Transfer.key = ch.transfers.map Transfer.key

theorem Channel.WordsMoved.refl (ch : Channel) : ch.WordsMoved ch := ⟨ch.transfers, rfl, rfl⟩

theorem Channel.WordsMoved.trans {a b c : Channel} (h : a.WordsMoved b) (k : b.WordsMoved c) : a.WordsMoved c := by
  obtain ⟨ts, rfl, hts⟩ := h
  obtain ⟨ts', rfl, hts'⟩ := k
  exact ⟨ts', rfl, hts'.trans hts⟩

theorem countWord_key (ts : List Transfer) : (countWord ts).map Transfer.key = ts.map Transfer.key := by
  induction ts with
  | nil => rfl
  | cons t rest ih =>
    unfold countWord
    split
    · rfl
    · rw [List.map_cons, List.map_cons, ih]

/-- The state goes on from `s` to `s'` with accesses served at most. -/
structure State.Served (s s' : State) : Prop where
  only : s.PortOnly s'
  chan : ∀ c, (s.engine.chan c).WordsMoved (s'.engine.chan c)

theorem State.Served.refl (s : State) : s.Served s := ⟨.refl s, fun _ => .refl _⟩

theorem State.Served.trans {a b c : State} (h : a.Served b) (k : b.Served c) : a.Served c :=
  ⟨h.only.trans k.only, fun d => (h.chan d).trans (k.chan d)⟩

/-- An access that changes the port and memory alone. -/
theorem State.Served.of_channels {s s' : State} (only : s.PortOnly s') (h : s'.engine.channels = s.engine.channels) :
    s.Served s' := ⟨only, fun c => by simpa only [Engine.chan, h] using Channel.WordsMoved.refl _⟩

theorem State.moveWord_served (s : State) (c : Side) : s.Served (s.moveWord c) := by
  refine ⟨s.moveWord_only c, fun c' => ?_⟩
  unfold State.moveWord
  dsimp only
  split
  · exact .refl _
  · by_cases h : c' = c
    · subst h
      exact ⟨_, Engine.chan_setChan _ _ _, countWord_key _⟩
    · have other : c' = c.other := Side.eq_other_of_ne h
      subst other
      exact ⟨_, Engine.chan_setChan_other _ _ _, rfl⟩

theorem State.completeCurrent_served (s : State) : s.Served s.completeCurrent := by
  have idle (s : State) : s.Served s.portIdle := .of_channels s.portIdle_only rfl
  unfold State.completeCurrent
  split
  · exact .refl s
  · refine State.Served.trans (.of_channels s.completeRecord_only ?_) (idle _)
    unfold State.completeRecord
    split <;> rfl
  · exact (s.moveWord_served _).trans (idle _)

theorem State.grant_served (s : State) : s.Served s.grant := by
  refine s.completeCurrent_served.trans (.of_channels ⟨rfl, rfl, ?_⟩ ?_) <;> unfold State.grant Engine.arbitrate
  · dsimp only
    split
    · rfl
    · split <;> rfl
  · dsimp only
    split
    · rfl
    · split <;> rfl

theorem State.serve_served (s : State) (p : State → Bool) : s.Served (s.serve p) :=
  State.serve_keeps (P := s.Served) (fun t h => h.trans t.grant_served) (fun t h => h.trans t.completeCurrent_served) p
    (.refl s)

/-- The first transfer of a direction stays the first, whatever of it moves. -/
theorem Channel.WordsMoved.transferOf? {ch ch' : Channel} (h : ch.WordsMoved ch') {toHost : Bool} {t : Transfer}
    (ht : ch.transferOf? toHost = some t) : ∃ t', ch'.transferOf? toHost = some t' ∧ t'.key = t.key := by
  obtain ⟨ts, rfl, hts⟩ := h
  have keyed (l : List Transfer) : (l.map Transfer.key).find? (fun t => t.toHost == toHost) =
      (l.find? fun t => t.toHost == toHost).map Transfer.key := List.find?_map
  have found := keyed ts
  rw [hts, keyed, show ch.transfers.find? (fun t => t.toHost == toHost) = some t from ht] at found
  obtain ⟨t', h', hk⟩ := Option.map_eq_some_iff.mp found.symm
  exact ⟨t', h', hk⟩

theorem Channel.WordsMoved.order {ch ch' : Channel} (h : ch.WordsMoved ch') : ch'.order = ch.order := by
  obtain ⟨ts, rfl, -⟩ := h
  rfl

theorem Channel.WordsMoved.buffers {ch ch' : Channel} (h : ch.WordsMoved ch') : ch'.buffers = ch.buffers := by
  obtain ⟨ts, rfl, -⟩ := h
  rfl

theorem Channel.WordsMoved.run {ch ch' : Channel} (h : ch.WordsMoved ch') : ch'.run = ch.run := by
  obtain ⟨ts, rfl, -⟩ := h
  rfl

/-! ### A transfer alone at the port (R171) -/

/-- Memory when the first words of a transfer that were left have moved. -/
def memWordsMoved (m : List Host.Cell) (data : List Byte) (t : Transfer) (k : Nat) : List Host.Cell :=
  (List.range k).foldl (fun m k => memTransferWord m data t (t.moved + k)) m

theorem memWordsMoved_succ (m : List Host.Cell) (data : List Byte) (t : Transfer) (k : Nat) :
    memWordsMoved m data t (k + 1) = memTransferWord (memWordsMoved m data t k) data t (t.moved + k) := by
  simp only [memWordsMoved, List.range_succ, List.foldl_append, List.foldl_cons, List.foldl_nil]

/-- A fetch changes no memory. -/
theorem memWordsMoved_fetch {t : Transfer} (h : t.toHost = false) (m : List Host.Cell) (data : List Byte) (k : Nat) :
    memWordsMoved m data t k = m := by
  induction k with
  | zero => rfl
  | succ k ih => rw [memWordsMoved_succ, ih, memTransferWord, h]; rfl

/-- The state with `k` more words moved of the transfer at the head, and the port as given. -/
def State.atWord (s : State) (c : Side) (t : Transfer) (rest : List Transfer) (p : Port) (k : Nat) : State :=
  { s with
    mem := memWordsMoved s.mem ((s.engine.chan c).buffers.get t.buf).data t k,
    engine := { s.engine.setChan c { s.engine.chan c with transfers := { t with moved := t.moved + k } :: rest } with
      port := p } }

section
variable {s : State} {c : Side} {t : Transfer} {rest : List Transfer}

theorem State.atWord_chan (p : Port) (k : Nat) : (s.atWord c t rest p k).engine.chan c =
    { s.engine.chan c with transfers := { t with moved := t.moved + k } :: rest } :=
  Engine.chan_setChan s.engine c _

theorem State.atWord_other (p : Port) (k : Nat) :
    (s.atWord c t rest p k).engine.chan c.other = s.engine.chan c.other :=
  Engine.chan_setChan_other s.engine c _

theorem State.atWord_zero (h : (s.engine.chan c).transfers = t :: rest) :
    s.atWord c t rest s.engine.port 0 = s := by
  have chan : { s.engine.chan c with transfers := { t with moved := t.moved + 0 } :: rest } = s.engine.chan c := by
    rw [Nat.add_zero, ← h]
  have engine : s.engine.setChan c (s.engine.chan c) = s.engine := by cases c <;> rfl
  unfold State.atWord
  rw [chan, engine]
  rfl

/-- The next word of the transfer moves. -/
theorem State.atWord_moveWord (p : Port) {k : Nat} (h : t.moved + k < t.words) :
    (s.atWord c t rest p k).moveWord c = s.atWord c t rest p (k + 1) := by
  have found : ((s.atWord c t rest p k).engine.chan c).transfer? = some { t with moved := t.moved + k } := by
    rw [State.atWord_chan]
    simp [Channel.transfer?, h]
  have counted : countWord ({ t with moved := t.moved + k } :: rest) = { t with moved := t.moved + (k + 1) } :: rest :=
    if_pos h
  have twice (v w : Channel) : ({ s.engine.setChan c v with port := p } : Engine).setChan c w =
      { s.engine.setChan c w with port := p } := by cases c <;> rfl
  unfold State.moveWord
  dsimp only
  rw [found]
  dsimp only
  rw [State.atWord_chan, counted]
  unfold State.atWord
  rw [twice, memWordsMoved_succ]
  rfl

/-- The transfer that is alone at the port with words left has the next word. -/
theorem State.atWord_grant {p : Port} {k : Nat} (rested : p.inProgress = none)
    (alone : (s.engine.chan c.other).wordWaiting = false) (h : t.moved + k < t.words) :
    (s.atWord c t rest p k).grant = s.atWord c t rest (p.onWord c) k := by
  have waits : ((s.atWord c t rest p k).engine.chan c).wordWaiting = true := by
    rw [State.atWord_chan]
    simp [Channel.wordWaiting, h]
  exact State.grant_word rested waits (.inl (by rw [State.atWord_other]; exact alone))

/-- The word on the bus moves. -/
theorem State.atWord_completeCurrent (p : Port) {k : Nat} (h : t.moved + k < t.words) :
    (s.atWord c t rest (p.onWord c) k).completeCurrent =
      s.atWord c t rest { p with inProgress := none, lastWord := c } (k + 1) := by
  have word : (s.atWord c t rest (p.onWord c) k).completeCurrent =
      ((s.atWord c t rest (p.onWord c) k).moveWord c).portIdle := rfl
  rw [word, State.atWord_moveWord _ h]
  rfl

/-- The word on the bus moves, and the next one follows it. -/
theorem State.atWord_next {p : Port} {k : Nat} (alone : (s.engine.chan c.other).wordWaiting = false)
    (h : t.moved + (k + 1) < t.words) :
    (s.atWord c t rest (p.onWord c) k).grant = s.atWord c t rest (p.onWord c) (k + 1) := by
  have moved := State.atWord_completeCurrent (s := s) (c := c) (t := t) (rest := rest) p (k := k) (by omega)
  have again : (s.atWord c t rest (p.onWord c) k).grant = (s.atWord c t rest (p.onWord c) k).completeCurrent.grant := by
    rw [moved, State.grant, State.grant, moved]
    rfl
  rw [again, moved, State.atWord_grant rfl alone h]
  rfl

/-- The transfer at the head has moved where its last word has. -/
theorem State.atWord_moved (p : Port) (k : Nat) :
    (s.atWord c t rest p k).moved c t.toHost = decide (t.words ≤ t.moved + k) := by
  have first : ((s.atWord c t rest p k).engine.chan c).transferOf? t.toHost = some { t with moved := t.moved + k } := by
    rw [State.atWord_chan]
    simp [Channel.transferOf?]
  rw [State.moved, first]
  rfl

/-- Grant after grant, the transfer comes to its last word. -/
theorem State.atWord_serveUntil (p : Port) (alone : (s.engine.chan c.other).wordWaiting = false) (n : Nat) {k : Nat}
    (h : t.moved + k < t.words) (hn : t.words ≤ t.moved + k + 1 + n) :
    (s.atWord c t rest (p.onWord c) k).serveUntil (fun s => s.completeCurrent.moved c t.toHost) n =
      s.atWord c t rest (p.onWord c) (t.words - t.moved - 1) := by
  have reached {k : Nat} (h : t.moved + k < t.words) :
      (s.atWord c t rest (p.onWord c) k).completeCurrent.moved c t.toHost = decide (t.words ≤ t.moved + (k + 1)) := by
    rw [State.atWord_completeCurrent p h, State.atWord_moved]
  induction n generalizing k with
  | zero =>
    have : k = t.words - t.moved - 1 := by omega
    rw [← this]
    rfl
  | succ n ih =>
    by_cases last : t.words ≤ t.moved + (k + 1)
    · have : k = t.words - t.moved - 1 := by omega
      rw [← this]
      exact State.serveUntil_of (p := fun s => s.completeCurrent.moved c t.toHost)
        ((reached h).trans (decide_eq_true last)) _
    · refine (if_neg fun more => ?_).trans ?_
      · exact last (of_decide_eq_true ((reached h).symm.trans more))
      · rw [State.atWord_next alone (by omega)]
        exact ih (by omega) (by omega)

/-- A transfer alone at the port moves all its words, the port at rest before and after. -/
theorem State.serve_alone (first : (s.engine.chan c).transfers = t :: rest) (rested : s.engine.port.inProgress = none)
    (alone : (s.engine.chan c.other).wordWaiting = false) : s.serve (State.moved c t.toHost) =
      s.atWord c t rest { s.engine.port with
        lastWord := if t.moved < t.words then c else s.engine.port.lastWord } (t.words - t.moved) := by
  have start := State.atWord_zero first
  have here : s.moved c t.toHost = decide (t.words ≤ t.moved) := by
    rw [← start, State.atWord_moved, Nat.add_zero]
  by_cases done : t.words ≤ t.moved
  · have none : t.words - t.moved = 0 := by omega
    rw [State.serve, if_pos (here.trans (decide_eq_true done)), if_neg (Nat.not_lt.mpr done), none]
    exact start.symm
  · have left : t.moved + 0 < t.words := by omega
    have left' : t.moved < t.words := by omega
    have idle : s.completeCurrent = s := by
      unfold State.completeCurrent
      rw [rested]
    have before : s.completeCurrent.moved c t.toHost = false := by
      rw [idle, here]
      simpa using left'
    have room : t.words - t.moved ≤ s.accessesLeft := by
      have own : t.words - t.moved ≤ (s.engine.chan c).wordsLeft := by
        rw [Channel.wordsLeft, first, List.map_cons, List.sum_cons]
        omega
      unfold State.accessesLeft
      cases c <;> omega
    have granted : s.grant = s.atWord c t rest (s.engine.port.onWord c) 0 := by
      have := State.atWord_grant (rest := rest) rested alone left
      rwa [start] at this
    obtain ⟨n, hn⟩ := Nat.exists_eq_succ_of_ne_zero (n := s.accessesLeft) (by omega)
    have served : s.serveTo (fun s => s.completeCurrent.moved c t.toHost) =
        s.atWord c t rest (s.engine.port.onWord c) (t.words - t.moved - 1) := by
      rw [State.serveTo, hn]
      refine (if_neg (by simp [before])).trans ?_
      rw [granted]
      exact State.atWord_serveUntil _ alone n left (by omega)
    have all : t.words - t.moved - 1 + 1 = t.words - t.moved := by omega
    rw [State.serve, if_neg (by simp [here, left']), served, State.atWord_completeCurrent _ (by omega), all, ← rested,
      if_pos left']

end

/-! ### A buffer's copy and fetch (R66, R129, R130) -/

/-- A command for a completed transfer, with a transfer of its direction in hand. -/
theorem State.transferDone_eq {s : State} {c : Side} {toHost : Bool} {t : Transfer} (active : s.front.active = true)
    (ht : (s.engine.chan c).transferOf? toHost = some t) (f : Front → Engine → Transfer → Engine) :
    ∃ t', t'.key = t.key ∧ ((s.serve (State.moved c toHost)).engine.chan c).transferOf? toHost = some t' ∧
      s.transferDone c toHost f = State.settle { s with
        mem := (s.serve (State.moved c toHost)).mem,
        engine := f s.front (s.serve (State.moved c toHost)).engine t' } := by
  have served := s.serve_served (State.moved c toHost)
  obtain ⟨t', ht', hk⟩ := (served.chan c).transferOf? ht
  refine ⟨t', hk, ht', ?_⟩
  have on : (s.front.active && ((s.engine.chan c).transferOf? toHost).isSome) = true := by simp [active, ht]
  rw [State.transferDone, if_pos on]
  dsimp only
  rw [ht']
  have active' : (s.serve (State.moved c toHost)).front.active = true := served.only.front ▸ active
  dsimp only
  rw [State.engineEvent, if_pos active', served.only.front]
  refine congrArg State.settle ?_
  rw [← served.only.pending, ← served.only.front]

/-- The engine once a READ sector's copy is done, before the channel carries on. -/
def Engine.copyDone (e : Engine) (c : Side) (t : Transfer) (o : Order) : Engine :=
  let e : Engine := e.updChan c fun ch => ch.endTransfer t { ch.buffers.get t.buf with use := .free }
  ((e.mark o.slot c t.pos .done).countDone o.slot).updItem c t.pos fun it => { it with st := .good }

theorem Engine.copied_eq (x : Front) {e : Engine} {c : Side} {t : Transfer} {o : Order} (ho : e.orderOf? c = some o) :
    e.copied x c t = (e.copyDone c t o).carryOn x c := by
  have same := Engine.orderOf?_updChan (e := e) (c := c)
    (f := fun ch => ch.endTransfer t { ch.buffers.get t.buf with use := .free }) rfl
  unfold Engine.copied
  dsimp only
  rw [same, ho]
  rfl

/-- The sector is done and counted. -/
theorem Engine.copyDone_held (e : Engine) (c : Side) (t : Transfer) (o : Order) : (e.copyDone c t o).held =
    e.held.map fun o' => if o'.slot == o.slot then
      { o'.setEntry c t.pos .done with sectorsDone := min 65535 (o'.sectorsDone + 1) } else o' :=
  congrArg Engine.held (Engine.updOrder_updOrder
    (e.updChan c fun ch => ch.endTransfer t { ch.buffers.get t.buf with use := .free }) o.slot
    (fun o => o.setEntry c t.pos .done) (fun o => { o with sectorsDone := min 65535 (o.sectorsDone + 1) })
    fun _ => rfl)

theorem Engine.countDone_chan (e : Engine) (slot : Nat) (c : Side) : (e.countDone slot).chan c = e.chan c := rfl

theorem Engine.copyDone_chan (e : Engine) (c : Side) (t : Transfer) (o : Order) : ∃ run,
    (e.copyDone c t o).chan c =
      { (e.chan c).endTransfer t { (e.chan c).buffers.get t.buf with use := .free } with run := run } := by
  obtain ⟨run, h⟩ := Engine.updItem_chan (((e.updChan c fun ch =>
    ch.endTransfer t { ch.buffers.get t.buf with use := .free }).mark o.slot c t.pos .done).countDone o.slot) c t.pos
    fun it => { it with st := .good }
  refine ⟨run, h.trans ?_⟩
  rw [Engine.countDone_chan, Engine.mark_chan, Engine.chan_updChan]

theorem Engine.copyDone_other (e : Engine) (c : Side) (t : Transfer) (o : Order) :
    (e.copyDone c t o).chan c.other = e.chan c.other := by
  refine (Engine.chan_updChan_other _ c _).trans ?_
  rw [Engine.countDone_chan, Engine.mark_chan, Engine.chan_updChan_other]

/-- The served state keeps the order found for a channel. -/
theorem State.Served.orderOf? {s s' : State} (h : s.Served s') (c : Side) :
    s'.engine.orderOf? c = s.engine.orderOf? c := by
  have held : s'.engine.held = s.engine.held := by rw [h.only.engine]
  unfold Engine.orderOf? Engine.order?
  rw [(h.chan c).order, held]

/-- Settles O34: the transfer completed is the first of its direction; alone at the port it moves its own words. -/
theorem bufferTransfersComplete : Obligations.BufferTransfersComplete := by
  intro s c t hc ch alone port
  have active := s.front.active_iff.mpr hc
  have finished {toHost : Bool} (h : ch.transferOf? toHost = some t) : t.toHost = toHost := by
    simpa using List.find?_some h
  constructor
  · intro o ht ho
    obtain ⟨t', hk, ht', done⟩ := State.transferDone_eq active ht fun x e t => e.copied x c t
    have served := s.serve_served (State.moved c true)
    have served_alone {rest : List Transfer} (h : alone rest) := finished ht ▸ State.serve_alone h.1 h.2.1 h.2.2
    generalize s.serve (State.moved c true) = s' at *
    have buf : t'.buf = t.buf := (congrArg Transfer.buf hk :)
    have pos : t'.pos = t.pos := (congrArg Transfer.pos hk :)
    have engine := served.only.engine
    obtain ⟨run, chan⟩ := s'.engine.copyDone_chan c t' o
    refine ⟨s'.mem, s'.engine.copyDone c t' o, ?_, ?_, ?_, ?_, ?_, ?_, ?_, fun rest h => ?_⟩
    · rw [← Engine.copied_eq s.front ((served.orderOf? c).trans ho)]
      exact congrArg Host.Outcome.next done
    · rw [Engine.copyDone_held, pos, engine]
    · rw [chan, buf]
      simp [Channel.endTransfer, Channel.setBuffer, buf]
    · exact (congrArg Engine.log engine :)
    · exact (congrArg Engine.drives engine :)
    · exact (congrArg Engine.timers engine :)
    · exact (congrArg Engine.attention engine :)
    · obtain rfl := served_alone h
      have whole : t' = { t with moved := t.moved + (t.words - t.moved) } := by
        rw [State.atWord_chan] at ht'
        simpa [Channel.transferOf?, finished ht, eq_comm] using ht'
      refine ⟨?_, ?_, ?_, rfl⟩
      · have toHost (m : List Host.Cell) (data : List Byte) (k : Nat) :
            memTransferWord m data t k = memWriteWord m (t.addr + 2 * k) (bufferWord data k) := if_pos (finished ht)
        simp only [State.atWord, memWordsMoved, toHost]
        rfl
      · rw [chan, State.atWord_chan, whole]
        exact List.erase_cons_head ..
      · rw [Engine.copyDone_other, State.atWord_other]
  · intro data ht wanted filled
    obtain ⟨t', hk, ht', done⟩ := State.transferDone_eq active ht fun x e t => e.fetched x c t data
    have served := s.serve_served (State.moved c false)
    have served_alone {rest : List Transfer} (h : alone rest) := finished ht ▸ State.serve_alone h.1 h.2.1 h.2.2
    generalize s.serve (State.moved c false) = s' at *
    have buf : t'.buf = t.buf := (congrArg Transfer.buf hk :)
    have pos : t'.pos = t.pos := (congrArg Transfer.pos hk :)
    have engine := served.only.engine
    have items : (s'.engine.chan c).run.items.any (fun it => it.pos == t'.pos && it.st == .wanted) = wanted := by
      rw [(served.chan c).run, pos]
    let ended : Engine := s'.engine.updChan c fun ch =>
      ch.endTransfer t' { use := if wanted then .ready t.pos dataMark else .free, data := data }
    have fetched : s'.engine.fetched s.front c t' data = ended.fillBuffers s.front c := by
      unfold Engine.fetched
      dsimp only
      rw [items, pos]
    have buffers : (ended.chan c).buffers = filled := by
      rw [Engine.chan_updChan]
      simp only [Channel.endTransfer, Channel.setBuffer, (served.chan c).buffers, buf]
      rfl
    have result : exec (.bufferFetchComplete c data) s = .next (State.settle { s with
        mem := s'.mem, engine := ended.fillBuffers s.front c }) := by
      rw [← fetched]
      exact congrArg Host.Outcome.next done
    refine ⟨⟨s'.mem, ended, result, buffers, (congrArg Engine.held engine :), (congrArg Engine.log engine :),
      (congrArg Engine.drives engine :)⟩, fun rest h => ?_⟩
    obtain rfl := served_alone h
    have whole : t' = { t with moved := t.moved + (t.words - t.moved) } := by
      rw [State.atWord_chan] at ht'
      simpa [Channel.transferOf?, finished ht, eq_comm] using ht'
    have transfers : (ended.chan c).transfers = rest := by
      rw [Engine.chan_updChan, State.atWord_chan, whole]
      exact List.erase_cons_head ..
    have chan : ended.chan c = { ch with buffers := filled, transfers := rest } := by
      rw [← buffers, ← transfers, Engine.chan_updChan, State.atWord_chan]
      rfl
    have same : ended = { s.engine.setChan c { ch with buffers := filled, transfers := rest } with port := port } := by
      rw [← chan]
      cases c <;> rfl
    have mem : memWordsMoved s.mem (ch.buffers.get t.buf).data t (t.words - t.moved) = s.mem :=
      memWordsMoved_fetch (finished ht) _ _ _
    rw [result, same]
    exact congrArg (fun m => Host.Outcome.next (State.settle { s with
      mem := m, engine := (Engine.fillBuffers s.front
        { s.engine.setChan c { ch with buffers := filled, transfers := rest } with port := port } c) })) mem

end Sys2Proof.Machine

namespace Sys2Proof.Machine

/-! ### A channel releases its order (R104, R115, R116) -/

/-- The engine once the channel has let go of its order, before the run's end. -/
def Engine.released (x : Front) (e : Engine) (c : Side) : Engine := (e.deselect x c false none).toIdle x c

theorem Engine.released_onlyChannel (x : Front) (e : Engine) (c : Side) : e.OnlyChannel c (e.released x c) :=
  (Engine.deselect_onlyChannel x e c _ _).trans (Engine.toIdle_onlyChannel x _ c)

/-- The run ends where no other channel holds the order. -/
theorem Engine.release_eq (x : Front) {e : Engine} {c : Side} {slot : Nat} (h : (e.chan c).order = some slot) :
    e.release x c = if (e.chan c.other).order = some slot then e.released x c else (e.released x c).endRun x slot := by
  have other : ((e.released x c).chan c.other).order = (e.chan c.other).order := by
    rw [(Engine.released_onlyChannel x e c).other]
  simp only [Engine.release, h]
  rw [← other]
  rfl

theorem Engine.released_chan (x : Front) (e : Engine) (c : Side) :
    (e.released x c).chan c = { ((e.deselect x c false none).chan c).letGo with state := .idle } :=
  Engine.toIdle_chan x _ c

/-- What the channel had in hand is given up (R103). -/
theorem Engine.released_letGo (x : Front) (e : Engine) (c : Side) :
    let ch := (e.released x c).chan c
    ch.state = .idle ∧ ch.order = none ∧ ch.transfers = [] ∧ ch.act = .none ∧ ch.stopping = false := by
  rw [Engine.released_chan]
  exact ⟨rfl, rfl, rfl, rfl, rfl⟩

theorem Engine.released_selected (x : Front) (e : Engine) (c : Side) : ((e.released x c).chan c).selected = none := by
  rw [Engine.released_chan, Engine.deselect_eq]
  rfl

/-- HLD stays up where the drive's record shows the head loaded (R110, R116). -/
theorem Engine.released_headLoad (x : Front) {e : Engine} {c : Side} {p : PairId} (h : (e.chan c).selected = some p) :
    ((e.released x c).chan c).headLoad = ((e.chan c).headLoad && (e.drive ⟨c, p⟩).loaded) := by
  rw [Engine.released_chan, Engine.deselect_chan x h]
  show e.keptLoad c = _
  simp [Engine.keptLoad, h]

theorem Engine.toIdle_timers (x : Front) (e : Engine) (c : Side) : (e.toIdle x c).timers = e.timers := by
  unfold Engine.toIdle Engine.enter
  split <;> rfl

/-- The unload timer starts by the head (R115). -/
theorem Engine.released_timer (x : Front) {e : Engine} {c : Side} {p : PairId} (h : (e.chan c).selected = some p) :
    (e.released x c).timers.drive ⟨c, p⟩ = timerStart (e.drive ⟨c, p⟩).loaded (x.record ⟨c, p⟩).unload := by
  have written (e : Engine) (d : Drive) (k : Knowledge) (n : Option Notice) :
      ((e.setDrive d k).writeStatus x d n).timers = e.timers := rfl
  rw [Engine.released, Engine.toIdle_timers]
  simp only [Engine.deselect, h, Bool.false_eq_true, if_false]
  rw [written]
  exact BySide.drive_setDrive_same _ _ _

theorem timerStart_eq (loaded : Bool) (delay : Nat) : timerStart loaded delay =
    if loaded = false then .stopped else if delay = 0 then .pending else .running delay := by
  cases loaded <;> rfl

/-! ### What is left of an order that is not mirrored -/

theorem Engine.resolveOnce_of_notMirrored (x : Front) {e : Engine} {slot : Nat} {o : Order}
    (ho : e.order? slot = some o) (hm : o.mirrored = false) (i : Nat) (final : Bool) :
    e.resolveOnce x slot i final = (e, none) := by
  simp only [Engine.resolveOnce, ho, hm, Bool.false_and, Bool.false_eq_true, if_false]

theorem Engine.resolveRest_of_notMirrored (x : Front) {e : Engine} {slot : Nat} {o : Order}
    (ho : e.order? slot = some o) (hm : o.mirrored = false) : e.resolveRest x slot = e := by
  have each (l : List Nat) : l.foldl (fun e i => (e.resolveOnce x slot i true).1) e = e := by
    induction l with
    | nil => rfl
    | cons i l ih => rw [List.foldl_cons, Engine.resolveOnce_of_notMirrored x ho hm, ih]
  simp only [Engine.resolveRest, ho]
  exact each _

theorem Order.leftFailure_eq_none (x : Front) {o : Order} (h : o.mirrored = false ∨ o.kind ≠ .read) :
    o.leftFailure x = none := by
  unfold Order.leftFailure
  refine if_neg ?_
  rcases h with h | h <;> simp [h]

/-! ### The code a run has earned (R21, R67 to R70, R79) -/

/-- The record of an order whose run ends, the code of the run to be read from it. -/
def Order.runEnded (x : Front) (o : Order) : Order :=
  { o with
    runs := if o.fields.standing then (o.runs + 1) % 256 else o.runs,
    pendingCode := o.pendingCode.or (o.leftFailure x) }

theorem Order.endCode_of_mark {o : Order} {m : FinishCode} (h : o.withdrawMark = some m) : o.endCode = m := by
  simp only [Order.endCode, h]

theorem Order.endCode_of_change {o : Order} (h : o.withdrawMark = none) (hc : o.changedMedium = true) :
    o.endCode = .mediumChanged := by
  simp only [Order.endCode, h, hc, if_true]

theorem Order.endCode_of_failure {o : Order} (h : o.withdrawMark = none) (hc : o.changedMedium = false)
    {f : FinishCode × Place} (hf : o.pendingCode = some f) : o.endCode = f.1 := by
  simp only [Order.endCode, h, hc, Bool.false_eq_true, if_false, hf]

theorem Order.endCode_of_side {o : Order} (h : o.withdrawMark = none) (hc : o.changedMedium = false)
    (hf : o.pendingCode = none) {f : FinishCode} (hs : o.sideFailure.a.or o.sideFailure.b = some f)
    (hk : o.kind = .seek ∨ o.kind = .recalibrate) : o.endCode = f := by
  simp only [Order.endCode, h, hc, Bool.false_eq_true, if_false, hf, hs, hk, if_true]

theorem Order.endCode_of_good {o : Order} (h : o.withdrawMark = none) (hc : o.changedMedium = false)
    (hf : o.pendingCode = none)
    (hs : o.sideFailure.a.or o.sideFailure.b = none ∨ (o.kind ≠ .seek ∧ o.kind ≠ .recalibrate)) :
    o.endCode = if o.mirrored = true ∧ 0 < o.logged then .okOneSide
      else if o.stale then .staleRead else .ok := by
  have logged : (o.mirrored && decide (0 < o.logged)) = true ↔ o.mirrored = true ∧ 0 < o.logged := by simp
  cases hside : o.sideFailure.a.or o.sideFailure.b with
  | none =>
    simp only [Order.endCode, h, hc, Bool.false_eq_true, if_false, hf, hside]
    simp only [logged]
  | some f =>
    obtain ⟨hseek, hrecal⟩ : o.kind ≠ .seek ∧ o.kind ≠ .recalibrate := by
      rcases hs with hs | hs
      · rw [hside] at hs; cases hs
      · exact hs
    simp only [Order.endCode, h, hc, Bool.false_eq_true, if_false, hf, hside, hseek, hrecal, or_self]
    simp only [logged]

theorem FinishCode.endsStanding_iff (c : FinishCode) : c.endsStanding = true ↔
    c = .mediumChanged ∨ c = .withdrawn ∨ c = .aborted ∨ c = .stopped ∨ c = .late := by
  cases c <;> simp [FinishCode.endsStanding]

/-! ### The end of a run (R24, R76, R77, R86) -/

/-- Changing an order and sending it to the tail, in either sequence. -/
theorem Engine.toTail_updOrder (e : Engine) (slot : Nat) (f : Order → Order) (hf : ∀ o, (f o).slot = o.slot) :
    (e.toTail slot).updOrder slot f = (e.updOrder slot f).toTail slot := by
  have slots (o : Order) : (if o.slot == slot then f o else o).slot = o.slot := by
    split
    · exact hf o
    · rfl
  simp only [Engine.toTail, Engine.updOrder, List.map_append, List.filter_map, Function.comp_def, slots]

/-- A MEND's order as it waits for its next turn (R76). -/
def Order.requeued (o : Order) : Order :=
  { o with state := .queued, age := 0, turn := none, waiter := none, plan := BySide.both false, mirrored := false,
           sideFailure := BySide.both none }

theorem Engine.requeueMend_eq (x : Front) (e : Engine) (slot : Nat) :
    e.requeueMend x slot = ((e.updOrder slot Order.requeued).toTail slot).writePhase x slot phaseQueued none := by
  rw [← Engine.toTail_updOrder e slot Order.requeued fun _ => rfl]
  rfl

/-- The engine when a run has ended: the sectors left are resolved, and the record has its run counted. -/
def Engine.ended (x : Front) (e : Engine) (slot : Nat) : Engine :=
  (e.resolveRest x slot).updOrder slot (Order.runEnded x)

theorem Engine.ended_order? (x : Front) {e : Engine} {slot : Nat} {o : Order}
    (ho : (e.resolveRest x slot).order? slot = some o) : (e.ended x slot).order? slot = some (o.runEnded x) := by
  rw [Engine.ended, Engine.order?_updOrder _ _ (Order.runEnded x) fun _ => rfl, ho]
  rfl

section
variable {x : Front} {e : Engine} {slot : Nat} {o : Order}

theorem Engine.endRun_eq (ho : (e.resolveRest x slot).order? slot = some o) (hf : o.finish = none) :
    e.endRun x slot =
      if o.kind = .mend ∧ (o.runEnded x).endCode = .ok then (e.ended x slot).endTurn x (o.runEnded x)
      else if o.fields.standing ∧ (o.runEnded x).endCode.endsStanding = false then
        if x.ctl = .run then (e.ended x slot).backToStanding x slot (o.runEnded x).endCode
        else (e.ended x slot).decideFinish x slot .stopped false
      else (e.ended x slot).decideFinish x slot (o.runEnded x).endCode false := by
  have found : ((e.resolveRest x slot).updOrder slot fun o =>
      { o with
        runs := if o.fields.standing then (o.runs + 1) % 256 else o.runs,
        pendingCode := o.pendingCode.or (o.leftFailure x) }).order? slot = some (o.runEnded x) :=
    Engine.ended_order? x ho
  have open' : (o.runEnded x).finish = none := hf
  unfold Engine.endRun
  dsimp only
  rw [found]
  dsimp only
  rw [open']
  rfl

/-- What is left of a MEND goes to the tail, or finishes STOPPED in DRAINING (R28, R76, R79). -/
def Engine.mendLeft (x : Front) (e : Engine) (slot : Nat) : Engine :=
  if x.ctl = .run then e.requeueMend x slot else e.decideFinish x slot .stopped false

theorem Engine.endTurn_attached (h : (e.pairs.get o.pair).mode = .attached) : e.endTurn x o =
    if e.log.any (LogEntry.ofPair o.pair) then e.mendLeft x o.slot else e.decideFinish x o.slot .ok false := by
  simp only [Engine.endTurn, h]
  rfl

theorem Engine.endTurn_noTurn (h : (e.pairs.get o.pair).mode = .detached) (ht : o.turn = none) :
    e.endTurn x o = e.mendLeft x o.slot := by
  simp only [Engine.endTurn, h, ht]
  rfl

theorem Engine.endTurn_turn (h : (e.pairs.get o.pair).mode = .detached) {t : Turn} (ht : o.turn = some t) :
    e.endTurn x o =
      if t.track + 1 = (o.geometry x).cylinders * (o.geometry x).surfaces then
        (e.pairAttach x o.pair).decideFinish x o.slot .ok false
      else (e.updOrder o.slot fun o => { o with cursor := some (t.track + 1) }).mendLeft x o.slot := by
  simp only [Engine.endTurn, h, ht]
  rfl

end

theorem Engine.any_ofPair_iff (e : Engine) (p : PairId) :
    e.log.any (LogEntry.ofPair p) = true ↔ ∃ l ∈ e.log, l.pair = p := by
  simp [LogEntry.ofPair, List.any_eq_true]

/-- Settles O56: the release, the order's record at the end of its run, and what each outcome makes of it. -/
theorem runsEnd : Obligations.RunsEnd := by
  intro x e slot
  refine ⟨fun c hc => ?_, fun o ho hm => Engine.resolveRest_of_notMirrored x ho hm,
    fun o h => Order.leftFailure_eq_none x h, ?_⟩
  · have only := Engine.released_onlyChannel x e c
    obtain ⟨state, order, transfers, act, stopping⟩ := Engine.released_letGo x e c
    refine ⟨e.released x c, Engine.release_eq x hc, state, order, Engine.released_selected x e c, transfers,
      act, stopping,
      only.other, only.held, only.log, only.pairs, fun p hp => ⟨Engine.released_headLoad x hp, ?_⟩⟩
    intro delay
    rw [Engine.released_timer x hp, timerStart_eq]
  · intro o ho hf r failure earned put ended code hcode
    have slot_eq : o.slot = slot := (Engine.order?_mem ho).2
    have code_eq : (o.runEnded x).endCode = code := by
      obtain ⟨mark, change, others⟩ := hcode
      cases hm : o.withdrawMark with
      | some m => exact (Order.endCode_of_mark (o := o.runEnded x) hm).trans (mark m hm).symm
      | none =>
        cases hc : o.changedMedium with
        | true => exact (Order.endCode_of_change (o := o.runEnded x) hm hc).trans (change hm hc).symm
        | false =>
          obtain ⟨failed, side, good⟩ := others hm hc
          cases hp : failure with
          | some f => exact (Order.endCode_of_failure (o := o.runEnded x) hm hc hp).trans (failed f hp).symm
          | none =>
            by_cases hs : o.sideFailure.a.or o.sideFailure.b = none ∨ (o.kind ≠ .seek ∧ o.kind ≠ .recalibrate)
            · exact (Order.endCode_of_good (o := o.runEnded x) hm hc hp hs).trans (good hp hs).symm
            · obtain ⟨hside, hkind⟩ := not_or.mp hs
              obtain ⟨f, hf⟩ := Option.ne_none_iff_exists'.mp hside
              have seeks : o.kind = .seek ∨ o.kind = .recalibrate := by tauto
              exact (Order.endCode_of_side (o := o.runEnded x) hm hc hp hf seeks).trans (side hp f hf seeks).symm
    have ended_eq : e.ended x slot = ended := rfl
    have run := Engine.endRun_eq ho hf
    rw [code_eq, ended_eq] at run
    intro ends
    have ends_iff : code.endsStanding = true ↔ ends := code.endsStanding_iff
    refine ⟨fun hk => ?_, fun hmend hok => ?_⟩
    · rw [if_neg (by tauto)] at run
      refine ⟨fun h => ?_, fun h h' => ⟨fun hrun => ?_, fun hrun => ?_⟩⟩
      · rw [run, if_neg]
        rintro ⟨hs, he⟩
        rcases h with h | h
        · rw [h] at hs; cases hs
        · rw [ends_iff.mpr h] at he; cases he
      · rw [run, if_pos ⟨h, Bool.eq_false_of_not_eq_true (mt ends_iff.mp h')⟩, if_pos hrun]
      · rw [run, if_pos ⟨h, Bool.eq_false_of_not_eq_true (mt ends_iff.mp h')⟩, if_neg hrun]
    · intro pair g left
      rw [if_pos ⟨hmend, hok⟩] at run
      have goes_left (cursor : Order → Option Nat) (h : e.endRun x slot =
          (put fun o' => { o' with cursor := cursor o' }).mendLeft x slot) : left cursor := by
        refine ⟨fun hrun => h.trans (if_neg hrun), fun hrun => ?_⟩
        intro again
        rw [h, Engine.mendLeft, if_pos hrun, Engine.requeueMend_eq]
        have twice : (put fun o' => { o' with cursor := cursor o' }).updOrder slot Order.requeued = again :=
          Engine.updOrder_updOrder r slot _ _ fun _ => rfl
        rw [twice]
        rfl
      refine ⟨fun hm => ⟨fun h => ?_, fun h => ?_⟩, fun hm => ⟨fun ht => ?_, fun t ht => ⟨fun h => ?_, fun h => ?_⟩⟩⟩
      · rw [run, Engine.endTurn_attached (e := ended) (o := o.runEnded x) hm, if_neg]
        · exact slot_eq ▸ rfl
        · rw [Engine.any_ofPair_iff]
          rintro ⟨l, hl, hp⟩
          exact h l hl hp
      · refine goes_left Order.cursor ?_
        rw [run, Engine.endTurn_attached (e := ended) (o := o.runEnded x) hm,
          if_pos ((Engine.any_ofPair_iff ended (o.runEnded x).pair).mpr h)]
        exact slot_eq ▸ rfl
      · refine goes_left Order.cursor ?_
        rw [run, Engine.endTurn_noTurn (e := ended) (o := o.runEnded x) hm ht]
        exact slot_eq ▸ rfl
      · refine goes_left (fun _ => some (t.track + 1)) ?_
        refine run.trans ((Engine.endTurn_turn (e := ended) (o := o.runEnded x) hm ht).trans ((if_neg h).trans ?_))
        have slot_eq' : (o.runEnded x).slot = slot := slot_eq
        rw [slot_eq']
        exact congrArg (Engine.mendLeft x · slot) (Engine.updOrder_updOrder r slot (Order.runEnded x)
          (fun o => { o with cursor := some (t.track + 1) }) fun _ => rfl)
      · refine run.trans ((Engine.endTurn_turn (e := ended) (o := o.runEnded x) hm ht).trans ((if_pos h).trans ?_))
        exact slot_eq ▸ rfl

end Sys2Proof.Machine

namespace Sys2Proof.Machine

/-! ### Operations that go through the held orders slot by slot -/

/-- The slots stay where one slot's order is changed. -/
theorem Engine.map_slot_slots (e : Engine) (slot : Nat) {F : Order → Order} (hF : ∀ o, (F o).slot = o.slot) :
    (e.held.map fun o => if o.slot == slot then F o else o).map Order.slot = e.held.map Order.slot := by
  rw [List.map_map]
  refine List.map_congr_left fun o _ => ?_
  by_cases ho : o.slot = slot <;> simp [ho, hF]

/-- An operation that changes the order of the slot it is given, and no other, changes every order when it has gone
through all slots. -/
theorem Engine.foldl_slots_held {g : Engine → Nat → Engine} {F : Order → Order} (hF : ∀ o, (F o).slot = o.slot)
    (hg : ∀ (e : Engine) (slot : Nat), (e.held.map Order.slot).Nodup →
      (g e slot).held = e.held.map fun o => if o.slot == slot then F o else o)
    (e : Engine) (hn : (e.held.map Order.slot).Nodup) :
    ((e.held.map Order.slot).foldl g e).held = e.held.map F := by
  have through (l : List Nat) (hl : l.Nodup) : ∀ e : Engine, (e.held.map Order.slot).Nodup →
      (l.foldl g e).held = e.held.map fun o => if o.slot ∈ l then F o else o := by
    induction l with
    | nil => intro e _; simp
    | cons n l ih =>
      intro e hn
      obtain ⟨notMem, hl⟩ := List.nodup_cons.mp hl
      have slots : (g e n).held.map Order.slot = e.held.map Order.slot := by
        rw [hg e n hn]
        exact e.map_slot_slots n hF
      rw [List.foldl_cons, ih hl _ (slots ▸ hn), hg e n hn, List.map_map]
      refine List.map_congr_left fun o _ => ?_
      by_cases ho : o.slot = n
      · simp [ho, hF, notMem]
      · simp [ho]
  rw [through _ hn e hn]
  exact List.map_congr_left fun o ho => if_pos (List.mem_map_of_mem ho)

/-- What such an operation keeps at each slot holds when it has gone through a list of slots. -/
theorem Engine.foldl_slots_keeps {g : Engine → Nat → Engine} {P : Engine → Prop}
    (slots : ∀ (e : Engine) (slot : Nat), (e.held.map Order.slot).Nodup →
      (g e slot).held.map Order.slot = e.held.map Order.slot)
    (h : ∀ e slot, (e.held.map Order.slot).Nodup → P e → P (g e slot)) (l : List Nat) :
    ∀ e : Engine, (e.held.map Order.slot).Nodup → P e → P (l.foldl g e) := by
  induction l with
  | nil => exact fun _ _ hp => hp
  | cons n l ih => exact fun e hn hp => ih _ (by rw [slots e n hn]; exact hn) (h e n hn hp)

/-- What every step of a fold keeps, the fold keeps. -/
theorem Engine.foldl_keeps {α ι : Type} (v : Engine → α) {g : Engine → ι → Engine} (h : ∀ e i, v (g e i) = v e)
    (l : List ι) : ∀ e : Engine, v (l.foldl g e) = v e := by
  induction l with
  | nil => exact fun _ => rfl
  | cons i l ih => exact fun e => (ih _).trans (h e i)

/-- A change of the order of a slot that is held once. -/
theorem Engine.map_slot_congr {e : Engine} {slot : Nat} {o : Order} (ho : e.order? slot = some o)
    (hn : (e.held.map Order.slot).Nodup) {f g : Order → Order} (h : f o = g o) :
    (e.held.map fun o => if o.slot == slot then f o else o) =
      e.held.map fun o => if o.slot == slot then g o else o := by
  refine List.map_congr_left fun o' ho' => ?_
  by_cases hs : o'.slot = slot
  · rw [Engine.order?_unique hn ho o' ho' hs, h]
  · simp [hs]

theorem Engine.map_slot_of_none {e : Engine} {slot : Nat} (ho : e.order? slot = none) (f : Order → Order) :
    (e.held.map fun o => if o.slot == slot then f o else o) = e.held := by
  refine (List.map_congr_left fun o hm => ?_).trans (List.map_id _)
  have : o.slot ≠ slot := by simpa using List.find?_eq_none.mp ho o hm
  simp [this]

theorem Engine.map_slot_of_eq {e : Engine} {slot : Nat} {o : Order} (ho : e.order? slot = some o)
    (hn : (e.held.map Order.slot).Nodup) {f : Order → Order} (h : f o = o) :
    (e.held.map fun o => if o.slot == slot then f o else o) = e.held :=
  (Engine.map_slot_congr ho hn (g := id) h).trans (by simp)

/-! ### What the log's write-back leaves -/

theorem Engine.writeBack_frame (x : Front) (e : Engine) (pos vacated : Nat) :
    (e.writeBack x pos vacated).held = e.held ∧ (e.writeBack x pos vacated).channels = e.channels ∧
      (e.writeBack x pos vacated).reserved = e.reserved ∧ (e.writeBack x pos vacated).drives = e.drives := by
  have same {α : Type} (v : Engine → α) (hv : ∀ e k ws n, v (e.issue k ws n) = v e) :
      v (e.writeBack x pos vacated) = v e := by
    unfold Engine.writeBack Engine.writeVacated Engine.writeImageFrom Engine.writeCounts Engine.writeLogLength
      Engine.headerWrite
    rw [hv, hv, Engine.foldl_keeps v, Engine.foldl_keeps v]
    · exact fun _ _ => hv _ _ _ _
    · exact fun _ _ => hv _ _ _ _
  exact ⟨same _ fun _ _ _ _ => rfl, same _ fun _ _ _ _ => rfl, same _ fun _ _ _ _ => rfl, same _ fun _ _ _ _ => rfl⟩

theorem Engine.logRemove_frame (x : Front) (e : Engine) (p : LogEntry → Bool) :
    (e.logRemove x p).held = e.held ∧ (e.logRemove x p).channels = e.channels ∧
      (e.logRemove x p).reserved = e.reserved ∧ (e.logRemove x p).drives = e.drives := by
  unfold Engine.logRemove
  split
  · exact ⟨rfl, rfl, rfl, rfl⟩
  · exact Engine.writeBack_frame x _ _ _

theorem Engine.logSet_frame (x : Front) (e : Engine) (l : LogEntry) :
    (e.logSet x l).held = e.held ∧ (e.logSet x l).channels = e.channels ∧
      (e.logSet x l).reserved = e.reserved ∧ (e.logSet x l).drives = e.drives := by
  unfold Engine.logSet
  split <;> exact Engine.writeBack_frame x _ _ _

/-- A pair's record is replaced and written back, and entries leave the log. -/
theorem Engine.repair_eq (x : Front) (e : Engine) (p : PairId) (r : PairRecord) (t : LogEntry → Bool) :
    let e' := ({ e with pairs := e.pairs.set p r }.writePair x p).logRemove x t
    e'.pairs = e.pairs.set p r ∧ e'.log = e.log.filter (fun l => !t l) ∧ e'.held = e.held ∧
      e'.channels = e.channels ∧ e'.reserved = e.reserved := by
  obtain ⟨log, pairs⟩ := Engine.logRemove_log x ({ e with pairs := e.pairs.set p r }.writePair x p) t
  obtain ⟨held, channels, reserved, -⟩ := Engine.logRemove_frame x ({ e with pairs := e.pairs.set p r }.writePair x p) t
  exact ⟨pairs, log, held, channels, reserved⟩

end Sys2Proof.Machine

namespace Sys2Proof.Machine

/-! ### BOUND-WAIT orders of a detached pair (R53, R74) -/

/-- The order returns to QUEUED when its pair is detached. -/
def Order.returns (p : PairId) (o : Order) : Bool :=
  o.fields.pairCopy && o.fields.drive.pair == p && o.state == .boundWait && o.finish.isNone

/-- The order as it returns to QUEUED, its reservation given back. -/
def Order.returned (o : Order) : Order :=
  { o with state := .queued, waiter := none, plan := BySide.both false, mirrored := false, reservation := 0 }

theorem Order.returns_returned (p : PairId) (o : Order) : o.returned.returns p = false := by
  simp [Order.returns, Order.returned]

section
variable (x : Front) {e : Engine} (p : PairId) {slot : Nat} {o : Order}

theorem Engine.unwait_of_none (ho : e.order? slot = none) : e.unwait x p slot = e := by
  simp only [Engine.unwait, ho]

theorem Engine.unwait_of_stays (ho : e.order? slot = some o) (hr : o.returns p = false) : e.unwait x p slot = e := by
  simp only [Engine.unwait, ho]
  exact if_neg (Bool.eq_false_iff.mp hr)

theorem Engine.returned_eq (ho : e.order? slot = some o) (hn : (e.held.map Order.slot).Nodup) :
    (e.unreserve x slot).updOrder slot (fun o =>
      { o with state := .queued, waiter := none, plan := BySide.both false, mirrored := false }) =
      e.became x slot o Order.returned [] := by
  rw [Engine.unreserve_eq x ho hn]
  simp only [Engine.became, Engine.updOrder, List.map_map]
  congr 1
  refine List.map_congr_left fun o' _ => ?_
  by_cases hs : o'.slot = slot <;> simp [hs, Order.returned]

theorem Engine.unwait_of_noWaiter (ho : e.order? slot = some o) (hn : (e.held.map Order.slot).Nodup)
    (hr : o.returns p = true) (hw : o.waiter = none) : e.unwait x p slot = e.became x slot o Order.returned [] := by
  rw [← Engine.returned_eq x ho hn]
  simp only [Engine.unwait, ho, hw]
  exact if_pos hr

/-- The order is changed, and then the channel that waited for it is freed. -/
theorem Engine.unwait_of_waiter (ho : e.order? slot = some o) (hn : (e.held.map Order.slot).Nodup)
    (hr : o.returns p = true) {c : Side} (hw : o.waiter = some c) :
    e.unwait x p slot = (e.became x slot o Order.returned []).freeWaiter x c slot := by
  rw [← Engine.returned_eq x ho hn]
  simp only [Engine.unwait, ho, hw]
  exact if_pos hr

/-- What the return of one order changes: its record, the reserved total, one channel at most. -/
theorem Engine.unwait_onlyChannel (ho : e.order? slot = some o) (hn : (e.held.map Order.slot).Nodup)
    (hr : o.returns p = true) : ∃ c, (e.became x slot o Order.returned []).OnlyChannel c (e.unwait x p slot) := by
  cases hw : o.waiter with
  | none => exact ⟨.A, Engine.unwait_of_noWaiter x p ho hn hr hw ▸ .refl _ _⟩
  | some c => exact ⟨c, Engine.unwait_of_waiter x p ho hn hr hw ▸ Engine.freeWaiter_onlyChannel x _ c slot⟩

theorem Engine.unwait_held (e : Engine) (slot : Nat) (hn : (e.held.map Order.slot).Nodup) :
    (e.unwait x p slot).held =
      e.held.map fun o => if o.slot == slot then (if o.returns p then o.returned else o) else o := by
  cases ho : e.order? slot with
  | none => rw [Engine.unwait_of_none x p ho, Engine.map_slot_of_none ho]
  | some o =>
    cases hr : o.returns p with
    | false =>
      rw [Engine.unwait_of_stays x p ho hr]
      exact (Engine.map_slot_of_eq ho hn (by simp [hr])).symm
    | true =>
      obtain ⟨c, only⟩ := Engine.unwait_onlyChannel x p ho hn hr
      rw [only.held]
      exact Engine.map_slot_congr (f := fun o => { o with reservation := 0 }.returned)
        (g := fun o => if o.returns p then o.returned else o) ho hn (by simp [hr, Order.returned])

theorem Engine.unwait_log_pairs (e : Engine) (slot : Nat) (hn : (e.held.map Order.slot).Nodup) :
    (e.unwait x p slot).log = e.log ∧ (e.unwait x p slot).pairs = e.pairs := by
  cases ho : e.order? slot with
  | none => rw [Engine.unwait_of_none x p ho]; exact ⟨rfl, rfl⟩
  | some o =>
    cases hr : o.returns p with
    | false => rw [Engine.unwait_of_stays x p ho hr]; exact ⟨rfl, rfl⟩
    | true =>
      obtain ⟨c, only⟩ := Engine.unwait_onlyChannel x p ho hn hr
      exact ⟨only.log, only.pairs⟩

/-! ### The reserved total (R63) -/

/-- What the orders that return have reserved. -/
def reservedBy (p : PairId) (l : List Order) : Nat := ((l.filter (Order.returns p)).map Order.reservation).sum

theorem reservedBy_cons (o : Order) (l : List Order) :
    reservedBy p (o :: l) = (if o.returns p then o.reservation else 0) + reservedBy p l := by
  unfold reservedBy
  cases h : o.returns p <;> simp [h]

theorem reservedBy_perm {l l' : List Order} (h : l.Perm l') : reservedBy p l = reservedBy p l' :=
  ((h.filter _).map _).sum_eq

/-- The reserved total falls by what the order had. -/
theorem Engine.unwait_reserved (e : Engine) (slot : Nat) (hn : (e.held.map Order.slot).Nodup) :
    (e.unwait x p slot).reserved - reservedBy p (e.unwait x p slot).held = e.reserved - reservedBy p e.held := by
  cases ho : e.order? slot with
  | none => rw [Engine.unwait_of_none x p ho]
  | some o =>
    cases hr : o.returns p with
    | false => rw [Engine.unwait_of_stays x p ho hr]
    | true =>
      obtain ⟨c, only⟩ := Engine.unwait_onlyChannel x p ho hn hr
      obtain ⟨mem, rfl⟩ := Engine.order?_mem ho
      have perm := perm_cons_filter_slot hn mem
      have others : ((e.held.filter fun o' => !(o'.slot == o.slot)).map fun o' =>
          if o'.slot == o.slot then (if o'.returns p then o'.returned else o') else o') =
          e.held.filter fun o' => !(o'.slot == o.slot) := by
        refine (List.map_congr_left fun o' ho' => ?_).trans (List.map_id _)
        have : o'.slot ≠ o.slot := by simpa using (List.mem_filter.mp ho').2
        simp [this]
      have before := reservedBy_perm p perm
      have after := reservedBy_perm p (perm.map fun o' =>
        if o'.slot == o.slot then (if o'.returns p then o'.returned else o') else o')
      rw [reservedBy_cons, hr, if_pos rfl] at before
      rw [List.map_cons, others, reservedBy_cons] at after
      simp only [beq_self_eq_true, hr, if_true, Order.returns_returned, Bool.false_eq_true, if_false] at after
      have reserved : (e.unwait x p o.slot).reserved = e.reserved - o.reservation := only.reserved
      rw [Engine.unwait_held x p e _ hn, after, before, reserved]
      omega

/-! ### The channels of the orders that return -/

/-- A channel keeps its order, but for the one that waited for the slot's. -/
theorem Engine.freeWaiter_order_cases (e : Engine) (c d : Side) (slot : Nat) :
    ((e.freeWaiter x c slot).chan d).order = (e.chan d).order ∨
      ((e.chan d).order = some slot ∧ ((e.freeWaiter x c slot).chan d).order = none) := by
  by_cases hd : d = c
  · subst hd
    by_cases h : (e.chan d).order = some slot
    · exact .inr ⟨h, Engine.freeWaiter_order x h⟩
    · exact .inl (by rw [Engine.freeWaiter, if_pos h])
  · rw [Side.eq_other_of_ne hd]
    exact .inl (congrArg Channel.order (Engine.freeWaiter_onlyChannel x e c slot).other)

theorem Engine.unwait_order_cases (e : Engine) (slot : Nat) (hn : (e.held.map Order.slot).Nodup) (d : Side) :
    ((e.unwait x p slot).chan d).order = (e.chan d).order ∨
      ((e.chan d).order = some slot ∧ ((e.unwait x p slot).chan d).order = none) := by
  cases ho : e.order? slot with
  | none => rw [Engine.unwait_of_none x p ho]; exact .inl rfl
  | some o =>
    cases hr : o.returns p with
    | false => rw [Engine.unwait_of_stays x p ho hr]; exact .inl rfl
    | true =>
      cases hw : o.waiter with
      | none => exact .inl (by rw [Engine.unwait_of_noWaiter x p ho hn hr hw]; rfl)
      | some c =>
        rw [Engine.unwait_of_waiter x p ho hn hr hw]
        exact Engine.freeWaiter_order_cases x (e.became x slot o Order.returned []) c d slot

end

/-! ### The fold over the slots -/

section
variable (x : Front) (p : PairId)

/-- The order of a slot after the pair is detached. -/
def Order.unwaited (p : PairId) (o : Order) : Order := if o.returns p then o.returned else o

theorem Order.unwaited_slot (o : Order) : (o.unwaited p).slot = o.slot := by
  unfold Order.unwaited
  split <;> rfl

theorem Engine.unwait_slots (e : Engine) (slot : Nat) (hn : (e.held.map Order.slot).Nodup) :
    (e.unwait x p slot).held.map Order.slot = e.held.map Order.slot := by
  rw [Engine.unwait_held x p e slot hn]
  exact e.map_slot_slots slot (Order.unwaited_slot p)

/-- What the return of any one order keeps, the return of all keeps. -/
theorem Engine.unwaitAll_keeps {P : Engine → Prop}
    (h : ∀ e slot, (e.held.map Order.slot).Nodup → P e → P (e.unwait x p slot)) (l : List Nat) :
    ∀ e : Engine, (e.held.map Order.slot).Nodup → P e → P (l.foldl (fun e slot => e.unwait x p slot) e) :=
  Engine.foldl_slots_keeps (fun e slot hn => Engine.unwait_slots x p e slot hn) h l

/-- Every order that returns has its channel freed. -/
theorem Engine.unwaitAll_frees {e : Engine} (hn : (e.held.map Order.slot).Nodup) {o : Order} (ho : o ∈ e.held)
    (hr : o.returns p = true) {c : Side} (hw : o.waiter = some c) (hc : (e.chan c).order = some o.slot) :
    (((e.held.map Order.slot).foldl (fun e slot => e.unwait x p slot) e).chan c).order = none := by
  obtain ⟨l, r, split⟩ := List.append_of_mem (List.mem_map_of_mem (f := Order.slot) ho)
  have notMem : o.slot ∉ l := by
    have := split ▸ hn
    exact fun h => (List.nodup_append.mp this).2.2 _ h _ List.mem_cons_self rfl
  have waits : ∀ (m : List Nat) (e : Engine), o.slot ∉ m → (e.held.map Order.slot).Nodup → o ∈ e.held →
      (e.chan c).order = some o.slot →
      let e' := m.foldl (fun e slot => e.unwait x p slot) e
      (e'.held.map Order.slot).Nodup ∧ o ∈ e'.held ∧ (e'.chan c).order = some o.slot := by
    intro m
    induction m with
    | nil => exact fun _ _ hn ho hc => ⟨hn, ho, hc⟩
    | cons n m ih =>
      intro e hm hn ho hc
      obtain ⟨hne, hm⟩ := List.ne_and_not_mem_of_not_mem_cons hm
      refine ih _ hm (by rw [Engine.unwait_slots x p e n hn]; exact hn) ?_ ?_
      · rw [Engine.unwait_held x p e n hn]
        exact List.mem_map.mpr ⟨o, ho, by simp [hne]⟩
      · rcases Engine.unwait_order_cases x p e n hn c with h | ⟨h, -⟩
        · exact h.trans hc
        · exact absurd (Option.some.inj (hc.symm.trans h)) hne
  obtain ⟨hn', ho', hc'⟩ := waits l e notMem hn ho hc
  rw [split, List.foldl_append, List.foldl_cons]
  refine Engine.unwaitAll_keeps x p (P := fun e => (e.chan c).order = none) (fun e n hn hp => ?_) r _ ?_ ?_
  · rcases Engine.unwait_order_cases x p e n hn c with h | ⟨-, h⟩
    · exact h.trans hp
    · exact h
  · rw [Engine.unwait_slots x p _ _ hn']
    exact hn'
  · rw [Engine.unwait_of_waiter x p (Engine.order?_of_mem hn' ho') hn' hr hw]
    exact Engine.freeWaiter_order x hc'

theorem Engine.unwaitAll_held (e : Engine) (hn : (e.held.map Order.slot).Nodup) :
    ((e.held.map Order.slot).foldl (fun e slot => e.unwait x p slot) e).held =
      e.held.map fun o => if o.returns p then o.returned else o :=
  Engine.foldl_slots_held (F := Order.unwaited p) (Order.unwaited_slot p)
    (fun e slot hn => Engine.unwait_held x p e slot hn) e hn

theorem Engine.unwaitAll_reserved (e : Engine) (hn : (e.held.map Order.slot).Nodup) :
    ((e.held.map Order.slot).foldl (fun e slot => e.unwait x p slot) e).reserved =
      e.reserved - reservedBy p e.held := by
  have kept := Engine.unwaitAll_keeps x p
    (P := fun e' => e'.reserved - reservedBy p e'.held = e.reserved - reservedBy p e.held)
    (fun e' n hn h => (Engine.unwait_reserved x p e' n hn).trans h) (e.held.map Order.slot) e hn rfl
  have none : reservedBy p (e.held.map fun o => if o.returns p then o.returned else o) = 0 := by
    have : ((e.held.map fun o => if o.returns p then o.returned else o).filter (Order.returns p)) = [] := by
      refine List.filter_eq_nil_iff.mpr fun o' ho' => ?_
      obtain ⟨o, -, rfl⟩ := List.mem_map.mp ho'
      cases hr : o.returns p <;> simp [hr, Order.returns_returned]
    rw [reservedBy, this]
    rfl
  rwa [Engine.unwaitAll_held x p e hn, none, Nat.sub_zero] at kept

theorem Engine.unwaitAll_log_pairs (e : Engine) (hn : (e.held.map Order.slot).Nodup) :
    ((e.held.map Order.slot).foldl (fun e slot => e.unwait x p slot) e).log = e.log ∧
      ((e.held.map Order.slot).foldl (fun e slot => e.unwait x p slot) e).pairs = e.pairs :=
  Engine.unwaitAll_keeps x p (P := fun e' => e'.log = e.log ∧ e'.pairs = e.pairs)
    (fun e' n hn ⟨log, pairs⟩ => ⟨(Engine.unwait_log_pairs x p e' n hn).1.trans log,
      (Engine.unwait_log_pairs x p e' n hn).2.trans pairs⟩) (e.held.map Order.slot) e hn ⟨rfl, rfl⟩

end

/-! ### The immediate orders (R16, R19, R74, R148) -/

theorem Kind.immediate_iff (k : Kind) : k.immediate = true ↔ k = .lock ∨ k = .unlock ∨ k = .detach := by
  cases k <;> decide

theorem PairRecord.keeps_iff (r : PairRecord) (c : Side) : r.keeps c = true ↔ r.mode = .detached ∧ r.kept = c := by
  simp [PairRecord.keeps]

section
variable (x : Front) (e : Engine) (f : OrderFields)

theorem Engine.immediate_lock (h : f.kind = .lock) :
    e.immediate x f = e.updDrive x f.drive fun k => { k with mountHold := true } := by simp only [Engine.immediate, h]

theorem Engine.immediate_unlock (h : f.kind = .unlock) :
    e.immediate x f = e.updDrive x f.drive fun k => { k with mountHold := false } := by simp only [Engine.immediate, h]

theorem Engine.immediate_detach (h : f.kind = .detach) : e.immediate x f = e.detach x f.drive := by
  simp only [Engine.immediate, h]

/-- What a change of one drive's record leaves. -/
theorem Engine.updDrive_frame (d : Drive) (g : Knowledge → Knowledge) :
    let e' := e.updDrive x d g
    e'.log = e.log ∧ e'.pairs = e.pairs ∧ e'.held = e.held ∧ e'.channels = e.channels ∧ e'.reserved = e.reserved ∧
      ∀ d', d' ≠ d → e'.drive d' = e.drive d' := by
  have same {α : Type} (v : Engine → α) (hd : ∀ e k, v (e.setDrive d k) = v e)
      (hw : ∀ e : Engine, v (e.writeStatus x d none) = v e) : v (e.updDrive x d g) = v e := by
    unfold Engine.updDrive
    dsimp only
    split
    · exact (hw _).trans (hd _ _)
    · exact hd _ _
  exact ⟨same _ (fun _ _ => rfl) fun _ => rfl, same _ (fun _ _ => rfl) fun _ => rfl,
    same _ (fun _ _ => rfl) fun _ => rfl, same _ (fun _ _ => rfl) fun _ => rfl,
    same _ (fun _ _ => rfl) fun _ => rfl, fun d' h => by rw [Engine.updDrive_drive, if_neg h]⟩

end

/-- Where it drives a door lock, the latch follows the held count and the mount hold (R148). -/
theorem Front.latchOf_doorLock {x : Front} {d : Drive} (ha : x.active = true) (hx : (x.record d).aux = .doorLock)
    (k : Knowledge) : x.latchOf d k = (decide (0 < k.heldCount) || k.mountHold) := by
  simp [Front.latchOf, hx, ha]

/-- What a DETACH that is taken leaves (R74). -/
theorem Engine.detach_eq (x : Front) {e : Engine} {d : Drive} (h : (e.pairs.get d.pair).keeps d.side = false) :
    e.detach x d = ((e.pairDetach x d).held.map Order.slot).foldl (fun e slot => e.unwait x d.pair slot)
      (e.pairDetach x d) := by
  simp [Engine.detach, h]

/-- Settles O24: LOCK and UNLOCK through the change of a drive's record, DETACH by the fold over the slots. -/
theorem immediateOrdersHaveTheirEffect : Obligations.ImmediateOrdersHaveTheirEffect := by
  unfold Obligations.ImmediateOrdersHaveTheirEffect
  intro x e f
  refine ⟨Kind.immediate_iff _, fun h => ?_, fun h => ?_, fun h => ?_, fun h kept => ?_, fun h kept hn => ?_⟩
  · rw [Engine.immediate_lock x e f h, Engine.updDrive_drive, if_pos rfl]
    exact ⟨rfl, fun ha hx => (Front.latchOf_doorLock ha hx _).trans (Bool.or_true _)⟩
  · rw [Engine.immediate_unlock x e f h, Engine.updDrive_drive, if_pos rfl]
    exact ⟨rfl, fun ha hx => (Front.latchOf_doorLock ha hx _).trans (Bool.or_false _)⟩
  · rcases h with h | h
    · rw [Engine.immediate_lock x e f h]
      exact Engine.updDrive_frame x e f.drive _
    · rw [Engine.immediate_unlock x e f h]
      exact Engine.updDrive_frame x e f.drive _
  · rw [Engine.immediate_detach x e f h, Engine.detach, if_pos ((PairRecord.keeps_iff _ _).mpr kept)]
  · have notKept : (e.pairs.get f.drive.pair).keeps f.drive.side = false :=
      Bool.eq_false_iff.mpr fun k => kept ((PairRecord.keeps_iff _ _).mp k)
    obtain ⟨pairs, log, held, channels, reserved⟩ := Engine.repair_eq x e f.drive.pair
      { e.pairs.get f.drive.pair with mode := .detached, kept := f.drive.side }
      (fun l => l.pair == f.drive.pair && l.good == f.drive.side)
    have hn' : ((e.pairDetach x f.drive).held.map Order.slot).Nodup := held ▸ hn
    rw [Engine.immediate_detach x e f h, Engine.detach_eq x notKept]
    obtain ⟨log', pairs'⟩ := Engine.unwaitAll_log_pairs x f.drive.pair (e.pairDetach x f.drive) hn'
    refine ⟨pairs'.trans pairs, log'.trans log, ?_, ?_, fun o ho hr c hw hc => ?_⟩
    · rw [Engine.unwaitAll_held x f.drive.pair _ hn']
      exact congrArg (List.map _) held
    · rw [Engine.unwaitAll_reserved x f.drive.pair _ hn']
      exact congr (congrArg HSub.hSub reserved) (congrArg (reservedBy f.drive.pair) held)
    · refine Engine.unwaitAll_frees x f.drive.pair hn' (o := o) (held.symm ▸ ho) hr hw ?_
      exact (congrArg (fun ch => (BySide.get ch c).order) channels).trans hc

end Sys2Proof.Machine

namespace Sys2Proof.Machine

/-! ### What a settling channel and the entry to CONFIG leave -/

/-- The engine goes on from `e` to `e'` with the port, the channels, the timers and the drives' records changed at
most. -/
def Engine.Around (e e' : Engine) : Prop :=
  ∃ p v t k r, e' = { e with port := p, channels := v, timers := t, drives := k, report := r }

section
variable {a e e' : Engine}

theorem Engine.Around.refl (e : Engine) : e.Around e := ⟨e.port, e.channels, e.timers, e.drives, e.report, rfl⟩

theorem Engine.Around.trans (h : a.Around e) (k : e.Around e') : a.Around e' := by
  obtain ⟨p, v, t, d, r, rfl⟩ := h
  obtain ⟨p', v', t', d', r', rfl⟩ := k
  exact ⟨p', v', t', d', r', rfl⟩

theorem Engine.Around.held (h : a.Around e) : e.held = a.held := by
  obtain ⟨p, v, t, d, r, rfl⟩ := h
  rfl

theorem Engine.Around.survey (h : a.Around e) : e.survey = a.survey := by
  obtain ⟨p, v, t, d, r, rfl⟩ := h
  rfl

theorem Engine.Around.log (h : a.Around e) : e.log = a.log := by
  obtain ⟨p, v, t, d, r, rfl⟩ := h
  rfl

theorem Engine.Around.deskHeld (h : a.Around e) : e.deskHeld = a.deskHeld := by
  obtain ⟨p, v, t, d, r, rfl⟩ := h
  rfl

theorem Engine.OnlyChannel.around {c : Side} (h : a.OnlyChannel c e) : a.Around e := by
  obtain ⟨p, v, t, k, rfl⟩ := h
  exact ⟨p, _, t, k, a.report, rfl⟩

theorem Engine.startTouch_onlyChannel (e : Engine) (c : Side) (p : PairId) (first : Bool) :
    e.OnlyChannel c (e.startTouch c p first) :=
  (Engine.updChan_onlyChannel e c _).trans (Engine.setTimer_onlyChannel _ c _ _)

theorem Engine.configChannel_onlyChannel (x : Front) (e : Engine) (c : Side) :
    e.OnlyChannel c (e.configChannel x c) := by
  unfold Engine.configChannel
  dsimp only
  split
  · exact .refl c e
  · split
    · exact Engine.startTouch_onlyChannel e c _ _
    · exact (Engine.updChan_onlyChannel e c _).trans (Engine.enter_onlyChannel x _ c _)

theorem Engine.releaseOutputs_around (x : Front) (e : Engine) (d : Drive) : e.Around (e.releaseOutputs x d) := by
  have written (b : Bool) (e : Engine) : e.Around (if b = true then e.writeStatus x d none else e) := by
    cases b
    · exact .refl e
    · exact ⟨_, _, _, _, _, rfl⟩
  unfold Engine.releaseOutputs
  exact Engine.Around.trans ⟨e.port, e.channels, e.timers, _, _, rfl⟩ (written _ _)

theorem Engine.Around.foldl {ι : Type} {f : Engine → ι → Engine} (h : ∀ (e : Engine) (i : ι), e.Around (f e i))
    (l : List ι) :
    ∀ e : Engine, e.Around (l.foldl f e) := by
  induction l with
  | nil => exact .refl
  | cons i l ih => exact fun e => (h e i).trans (ih _)

theorem Engine.configChannels_around (x : Front) (e : Engine) : e.Around (e.configChannels x) := by
  have channels := (Engine.configChannel_onlyChannel x e .A).around.trans
    (Engine.configChannel_onlyChannel x (e.configChannel x .A) .B).around
  unfold Engine.configChannels
  dsimp only
  split
  · exact channels.trans (.foldl (fun e d => Engine.releaseOutputs_around x e d) _ _)
  · exact channels

theorem Engine.enterConfig_around (x : Front) (e : Engine) : e.Around (e.enterConfig x) :=
  Engine.Around.trans ⟨_, _, _, e.drives, e.report, rfl⟩ (Engine.configChannels_around x _)

end

/-! ### Settling in DRAINING with no order to take over (R31, R115, R161) -/

section
variable {x : Front} {e : Engine}

/-- A bound order waits for its other channel to take it over. -/
def Engine.Bound (e : Engine) : Prop := ∃ c, (e.boundFor? c).isSome = true

theorem Engine.not_bound_iff : ¬e.Bound ↔ ∀ c, e.boundFor? c = none := by
  simp [Engine.Bound]

/-- Where every order that waits has its finish, no order waits to be taken over. -/
theorem Engine.not_bound_of_waiting_finished (h : ∀ o ∈ e.held, o.finish = none → o.state = .running) : ¬e.Bound := by
  refine Engine.not_bound_iff.mpr fun c => List.find?_eq_none.mpr fun o ho => ?_
  cases hf : o.finish with
  | none => simp [h o ho hf]
  | some _ => simp

theorem Engine.Around.not_bound {a e : Engine} (h : a.Around e) (hb : ¬a.Bound) : ¬e.Bound := by
  rw [Engine.not_bound_iff] at hb ⊢
  intro c
  rw [← hb c, Engine.boundFor?, h.held]
  rfl

/-- With nothing to take over and no choice to make, a channel begins nothing. -/
theorem Engine.takeNext_draining (hx : x.ctl ≠ .run) (hb : ¬e.Bound) (c : Side) : e.takeNext x c = (e, false) := by
  simp only [Engine.takeNext, Engine.not_bound_iff.mp hb c]
  exact if_pos (.inl hx)

/-- A channel that settles makes a pending unload touch, or does nothing. -/
theorem Engine.settleChannel_draining (hx : x.ctl ≠ .run) (hb : ¬e.Bound) (c : Side) :
    e.settleChannel x c = (e, false) ∨ ∃ p, e.settleChannel x c = (e.startTouch c p true, true) := by
  simp only [Engine.settleChannel, Engine.takeNext_draining hx hb c]
  split
  · exact .inl rfl
  · split
    · exact .inl (ite_self _)
    · split
      · exact .inr ⟨_, rfl⟩
      · exact .inl rfl

theorem Engine.settleChannel_around (hx : x.ctl ≠ .run) (hb : ¬e.Bound) (c : Side) :
    e.Around (e.settleChannel x c).1 := by
  rcases Engine.settleChannel_draining hx hb c with h | ⟨p, h⟩
  · rw [h]
    exact .refl e
  · rw [h]
    exact (Engine.startTouch_onlyChannel e c p true).around

/-- A touch that a channel makes goes on while the channels settle. -/
theorem Engine.settleChannel_touch (hx : x.ctl ≠ .run) (hb : ¬e.Bound) (c d : Side)
    (h : ((e.settleChannel x c).1.chan d).touch = none) : (e.chan d).touch = none := by
  rcases Engine.settleChannel_draining hx hb c with k | ⟨p, k⟩
  · rwa [k] at h
  · rw [k] at h
    by_cases hd : d = c
    · subst hd
      have : ((e.startTouch d p true).chan d).touch = some { pair := p, first := true } :=
        congrArg Channel.touch (Engine.chan_updChan e d fun ch =>
          { ch with touch := some { pair := p, first := true }, headLoad := false })
      rw [this] at h
      cases h
    · have : d = c.other := Side.eq_other_of_ne hd
      rwa [this, (Engine.startTouch_onlyChannel e c p true).other, ← this] at h

theorem Engine.settleChannel_untouched (hx : x.ctl ≠ .run) (hb : ¬e.Bound) (c : Side)
    (h : ((e.settleChannel x c).1.chan c).touch = none) : e.settleChannel x c = (e, false) := by
  rcases Engine.settleChannel_draining hx hb c with k | ⟨p, k⟩
  · exact k
  · rw [k] at h
    have : ((e.startTouch c p true).chan c).touch = some { pair := p, first := true } :=
      congrArg Channel.touch (Engine.chan_updChan e c fun ch =>
        { ch with touch := some { pair := p, first := true }, headLoad := false })
    rw [this] at h
    cases h

theorem Engine.settleLoop_around (hx : x.ctl ≠ .run) (n : Nat) :
    ∀ e : Engine, ¬e.Bound → e.Around (e.settleLoop x n) := by
  induction n with
  | zero => exact fun e _ => .refl e
  | succ n ih =>
    intro e hb
    have first := Engine.settleChannel_around hx hb .A
    have both := first.trans (Engine.settleChannel_around hx (first.not_bound hb) .B)
    unfold Engine.settleLoop
    dsimp only
    split
    · exact both.trans (ih _ (both.not_bound hb))
    · exact both

/-- Where the settled channels make no touch, nothing was begun. -/
theorem Engine.settleLoop_untouched (hx : x.ctl ≠ .run) (n : Nat) : ∀ e : Engine, ¬e.Bound →
    (∀ c, ((e.settleLoop x n).chan c).touch = none) → ∀ c, (e.chan c).touch = none := by
  induction n with
  | zero => exact fun e _ h => h
  | succ n ih =>
    intro e hb h c
    have first := Engine.settleChannel_around hx hb .A
    have hb' := first.not_bound hb
    have both := first.trans (Engine.settleChannel_around hx hb' .B)
    refine Engine.settleChannel_touch hx hb .A c (Engine.settleChannel_touch hx hb' .B c ?_)
    unfold Engine.settleLoop at h
    dsimp only at h
    split at h
    · exact ih _ (both.not_bound hb) h c
    · exact h c

theorem Engine.settleLoop_begins_nothing (hx : x.ctl ≠ .run) {n : Nat} (hb : ¬e.Bound)
    (h : ∀ c, ((e.settleLoop x (n + 1)).chan c).touch = none) :
    (∀ c, e.settleChannel x c = (e, false)) ∧ e.settleLoop x (n + 1) = e := by
  have first := Engine.settleChannel_around hx hb .A
  have hb' := first.not_bound hb
  have both := first.trans (Engine.settleChannel_around hx hb' .B)
  have rounds : ∀ c, (((e.settleChannel x .A).1.settleChannel x .B).1.chan c).touch = none := by
    unfold Engine.settleLoop at h
    dsimp only at h
    split at h
    · exact Engine.settleLoop_untouched hx n _ (both.not_bound hb) h
    · exact h
  have a := Engine.settleChannel_untouched hx hb .A (Engine.settleChannel_touch hx hb' .B .A (rounds .A))
  rw [a] at rounds
  have b := Engine.settleChannel_untouched hx hb .B (rounds .B)
  refine ⟨fun c => by cases c <;> assumption, ?_⟩
  simp [Engine.settleLoop, a, b]

/-- A free channel begins nothing where no unload is pending. -/
theorem Engine.settleChannel_of_noPending (hx : x.ctl ≠ .run) (hb : ¬e.Bound) {c : Side}
    (h : ∀ p, e.timers.drive ⟨c, p⟩ ≠ .pending) : e.settleChannel x c = (e, false) := by
  have none : e.pendingUnload? c = none := List.find?_eq_none.mpr fun p _ => by simp [h p]
  simp only [Engine.settleChannel, Engine.takeNext_draining hx hb c, none]
  split
  · rfl
  · split
    · exact ite_self _
    · rfl

theorem Engine.noPending_of_settleChannel (hb : ¬e.Bound) {c : Side} (hf : (e.chan c).free = true)
    (ht : (e.chan c).touch = none) (h : e.settleChannel x c = (e, false)) (p : PairId) :
    e.timers.drive ⟨c, p⟩ ≠ .pending := by
  intro hp
  have found : (e.pendingUnload? c).isSome = true := by
    refine List.find?_isSome.mpr ⟨p, by cases p <;> simp, ?_⟩
    simp [hp, Engine.not_bound_iff.mp hb c]
  obtain ⟨q, hq⟩ := Option.isSome_iff_exists.mp found
  simp [Engine.settleChannel, hf, ht, hq] at h

/-- What a drained controller has come to (R161). -/
theorem Engine.settle_drained_iff (hx : x.ctl = .draining) (hb : ¬e.Bound) : (e.settle x).drained = true ↔
    e.held = [] ∧ (∀ c, (e.chan c).free = true ∧ (e.chan c).touch = none ∧ ∀ p, e.timers.drive ⟨c, p⟩ ≠ .pending) ∧
      e.finishOutstanding = false := by
  have hne : x.ctl ≠ .run := by simp [hx]
  have settled : e.settle x = e.settleLoop x 12 := by simp [Engine.settle, Front.active, hx]
  have parts (e : Engine) : e.drained = true ↔ e.held = [] ∧
      (∀ c, (e.chan c).free = true ∧ (e.chan c).touch = none) ∧ e.finishOutstanding = false := by
    have sides (P : Side → Prop) : (∀ c, P c) ↔ P .A ∧ P .B :=
      ⟨fun h => ⟨h .A, h .B⟩, fun ⟨a, b⟩ c => by cases c <;> assumption⟩
    rw [sides]
    simp only [Engine.drained, Bool.and_eq_true, Option.isNone_iff_eq_none, List.isEmpty_iff, Bool.not_eq_true']
    tauto
  rw [settled]
  constructor
  · intro h
    have drained := (parts _).mp h
    obtain ⟨still, same⟩ := Engine.settleLoop_begins_nothing hne hb fun c => (drained.2.1 c).2
    rw [same] at drained
    obtain ⟨held, free, finish⟩ := drained
    exact ⟨held, fun c => ⟨(free c).1, (free c).2,
      Engine.noPending_of_settleChannel hb (free c).1 (free c).2 (still c)⟩, finish⟩
  · rintro ⟨held, free, finish⟩
    have still (c : Side) := Engine.settleChannel_of_noPending hne hb (c := c) (free c).2.2
    have same : e.settleLoop x 12 = e := by simp [Engine.settleLoop, still]
    rw [same]
    exact (parts e).mpr ⟨held, fun c => ⟨(free c).1, (free c).2.1⟩, finish⟩

end

/-! ### The waiting orders finish (R28, R29) -/

/-- The order of a slot after STOP. -/
def Order.stopped (o : Order) : Order :=
  if o.finish.isNone && !(o.state == .running) then { o with reservation := 0 }.finished .stopped else o

theorem Order.stopped_slot (o : Order) : o.stopped.slot = o.slot := by
  unfold Order.stopped
  split <;> rfl

theorem Order.stopped_of_waiting {o : Order} (h : (o.finish.isNone && !(o.state == .running)) = true) :
    o.stopped = { o with reservation := 0 }.finished .stopped := if_pos h

theorem Order.stopped_of_not {o : Order} (h : ¬(o.finish.isNone && !(o.state == .running)) = true) : o.stopped = o :=
  if_neg h

section
variable (x : Front) {e : Engine} {slot : Nat} {o : Order}

theorem Engine.finishIfWaiting_of_none (ho : e.order? slot = none) (code : FinishCode) :
    e.finishIfWaiting x slot code = e := by
  simp only [Engine.finishIfWaiting, ho]

theorem Engine.finishIfWaiting_of_some (ho : e.order? slot = some o) (code : FinishCode) :
    e.finishIfWaiting x slot code =
      if o.finish.isNone && !(o.state == .running) then e.finishWaiting x slot code false else e := by
  simp only [Engine.finishIfWaiting, ho]

theorem Engine.finishIfWaiting_held (e : Engine) (slot : Nat) (hn : (e.held.map Order.slot).Nodup) :
    (e.finishIfWaiting x slot .stopped).held = e.held.map fun o => if o.slot == slot then o.stopped else o := by
  cases ho : e.order? slot with
  | none => rw [Engine.finishIfWaiting_of_none x ho, Engine.map_slot_of_none ho]
  | some o =>
    rw [Engine.finishIfWaiting_of_some x ho]
    split
    · rename_i h
      have hf : o.finish = none := by simp only [Bool.and_eq_true, Option.isNone_iff_eq_none] at h; exact h.1
      rw [Engine.finishWaiting_held x ho hn hf]
      exact Engine.map_slot_congr (f := fun o => { o with reservation := 0 }.finished .stopped) ho hn
        (Order.stopped_of_waiting h).symm
    · rename_i h
      exact (Engine.map_slot_of_eq ho hn (Order.stopped_of_not h)).symm

/-- The finish of a waiting order leaves the survey, the log and the desks' counts. -/
theorem Engine.finishWaiting_frame (ho : e.order? slot = some o) (hn : (e.held.map Order.slot).Nodup)
    (hf : o.finish = none) (code : FinishCode) (late : Bool) :
    (e.finishWaiting x slot code late).survey = e.survey ∧ (e.finishWaiting x slot code late).log = e.log ∧
      (e.finishWaiting x slot code late).deskHeld = e.deskHeld := by
  have decided : (e.decideFinish x slot code late).survey = e.survey ∧
      (e.decideFinish x slot code late).log = e.log ∧ (e.decideFinish x slot code late).deskHeld = e.deskHeld := by
    rw [Engine.decideFinish_eq x ho hn hf]
    exact ⟨rfl, rfl, rfl⟩
  cases hw : o.waiter with
  | none => rwa [Engine.finishWaiting_of_noWaiter x ho hw]
  | some c =>
    have only := Engine.freeWaiter_onlyChannel x (e.decideFinish x slot code late) c slot
    rw [Engine.finishWaiting_of_waiter x ho hw, only.survey, only.log, only.deskHeld]
    exact decided

theorem Engine.stopAll_held (e : Engine) (hn : (e.held.map Order.slot).Nodup) :
    (e.stopAll x).held = e.held.map Order.stopped :=
  Engine.foldl_slots_held Order.stopped_slot (fun e slot hn => Engine.finishIfWaiting_held x e slot hn) e hn

theorem Engine.stopAll_frame (e : Engine) (hn : (e.held.map Order.slot).Nodup) :
    (e.stopAll x).survey = e.survey ∧ (e.stopAll x).log = e.log ∧ (e.stopAll x).deskHeld = e.deskHeld := by
  refine Engine.foldl_slots_keeps
    (P := fun e' => e'.survey = e.survey ∧ e'.log = e.log ∧ e'.deskHeld = e.deskHeld)
    (fun e slot hn => ?_) (fun e' slot hn h => ?_) _ e hn ⟨rfl, rfl, rfl⟩
  · rw [Engine.finishIfWaiting_held x e slot hn]
    exact e.map_slot_slots slot Order.stopped_slot
  · cases ho : e'.order? slot with
    | none => rwa [Engine.finishIfWaiting_of_none x ho]
    | some o =>
      rw [Engine.finishIfWaiting_of_some x ho]
      split
      · rename_i hw
        have hf : o.finish = none := by simp only [Bool.and_eq_true, Option.isNone_iff_eq_none] at hw; exact hw.1
        obtain ⟨survey, log, desks⟩ := Engine.finishWaiting_frame x ho hn hf .stopped false
        exact ⟨survey.trans h.1, log.trans h.2.1, desks.trans h.2.2⟩
      · exact h

/-- After STOP no order waits to be taken over. -/
theorem Engine.stopAll_not_bound (e : Engine) (hn : (e.held.map Order.slot).Nodup) : ¬(e.stopAll x).Bound := by
  refine Engine.not_bound_of_waiting_finished fun o ho hf => ?_
  rw [Engine.stopAll_held x e hn] at ho
  obtain ⟨o, -, rfl⟩ := List.mem_map.mp ho
  unfold Order.stopped at hf ⊢
  split at hf
  · cases hf
  · rename_i h
    rw [if_neg h]
    simpa [hf] using h

end

/-- With no order held STOP finishes none. -/
theorem Engine.stopAll_of_empty (x : Front) {e : Engine} (h : e.held = []) : e.stopAll x = e := by
  simp [Engine.stopAll, h]

/-! ### STOP (R28, R159, R161) -/

/-- No finish is on its way: no DONE bit is to be told (R161). -/
theorem Engine.finishOutstanding_iff (e : Engine) : e.finishOutstanding = false ↔
    ∀ slot notify how late, Notice.doneBit slot notify how late ∉ e.port.notices ∧
      ∀ r ∈ e.port.queue, r.notice ≠ some (.doneBit slot notify how late) := by
  have isDone (n : Notice) : n.isDoneBit = true ↔ ∃ slot notify how late, n = .doneBit slot notify how late := by
    cases n <;> simp [Notice.isDoneBit]
  simp only [Engine.finishOutstanding, Bool.or_eq_false_iff, List.any_eq_false, Request.tells, Option.any_eq_true,
    isDone]
  constructor
  · rintro ⟨queue, notices⟩ slot notify how late
    exact ⟨fun h => notices _ h ⟨slot, notify, how, late, rfl⟩,
      fun r hr h => queue r hr ⟨_, h, slot, notify, how, late, rfl⟩⟩
  · refine fun h => ⟨fun r hr => ?_, fun n hn => ?_⟩
    · rintro ⟨n, hn, slot, notify, how, late, rfl⟩
      exact (h slot notify how late).2 r hr hn
    · rintro ⟨slot, notify, how, late, rfl⟩
      exact (h slot notify how late).1 hn

/-- A header write that tells nothing. -/
theorem Engine.headerWrite_finishOutstanding (x : Front) (e : Engine) (ws : List (Nat × Word)) :
    (e.headerWrite x ws none).finishOutstanding = e.finishOutstanding := by
  simp [Engine.finishOutstanding, Engine.headerWrite, Engine.issue, Request.tells]

/-- The survey has ended, and the controller state is written (R28, R159). -/
def Engine.surveyStopped (x : Front) (e : Engine) : Engine :=
  (e.writeCtl x .draining).setSurvey x e.survey.stop

theorem Engine.surveyStopped_eq (x : Front) (e : Engine) : ∃ p,
    e.surveyStopped x = { e with survey := e.survey.stop, port := p } ∧
      (e.surveyStopped x).finishOutstanding = e.finishOutstanding := by
  have written := Engine.headerWrite_finishOutstanding x e [(0x00, BitVec.ofNat 16 Ctl.draining.code)]
  unfold Engine.surveyStopped Engine.setSurvey
  dsimp only
  split
  · exact ⟨_, rfl, (Engine.headerWrite_finishOutstanding x _ _).trans written⟩
  · exact ⟨_, rfl, written⟩

theorem execStop_eq {s : State} (hl : s.front.resetLine = false) (hc : s.front.ctl = .run) :
    exec .stop s = .next (State.settle { s with
      front := { s.front with ctl := .draining },
      engine := (s.engine.surveyStopped { s.front with ctl := .draining }).stopAll
        { s.front with ctl := .draining } }) :=
  congrArg Host.Outcome.next (if_pos ⟨Front.hears_of_noLine hl, hc⟩)

theorem Channel.free_iff (ch : Channel) : ch.free = true ↔ ch.state = .idle ∧ ch.order = none ∧ ch.deferred = none := by
  simp [Channel.free, and_assoc]

/-- Settling in DRAINING: with a drained engine the controller enters CONFIG. -/
theorem State.settle_draining {s : State} (hc : s.front.ctl = .draining) (hb : ¬s.engine.Bound) :
    (s.settle.front.ctl = .draining ∨ s.settle.front.ctl = .config) ∧
      (s.settle.front.ctl = .config ↔ (s.engine.settle s.front).drained = true) ∧
      s.settle.front.done = s.front.done ∧ s.settle.front.intake = s.front.intake ∧
      s.engine.Around s.settle.engine := by
  have around : s.engine.Around (s.engine.settle s.front) := by
    unfold Engine.settle
    split
    · exact Engine.settleLoop_around (by simp [hc]) 12 _ hb
    · exact .refl _
  unfold State.settle
  dsimp only
  split
  · rename_i h
    exact ⟨.inr rfl, ⟨fun _ => h.2, fun _ => rfl⟩, rfl, rfl, around.trans (Engine.enterConfig_around _ _)⟩
  · rename_i h
    exact ⟨.inl hc, ⟨fun k => absurd (hc.symm.trans k) (by simp), fun k => absurd ⟨hc, k⟩ h⟩, rfl, rfl, around⟩

/-- What STOP finds where nothing is left to wait for (R161). -/
theorem Engine.stopAll_settle_drained_iff {x : Front} {e : Engine} (hx : x.ctl = .draining)
    (hn : (e.held.map Order.slot).Nodup) : ((e.stopAll x).settle x).drained = true ↔
      e.held = [] ∧ (∀ c, (e.chan c).free = true ∧ (e.chan c).touch = none ∧ ∀ p, e.timers.drive ⟨c, p⟩ ≠ .pending) ∧
        e.finishOutstanding = false := by
  rw [Engine.settle_drained_iff hx (Engine.stopAll_not_bound x e hn)]
  by_cases h : e.held = []
  · rw [Engine.stopAll_of_empty x h]
  · have left : (e.stopAll x).held ≠ [] := by simpa [Engine.stopAll_held x e hn] using h
    exact ⟨fun k => absurd k.1 left, fun k => absurd k.1 h⟩

/-- Settles O17: the waiting orders finish by the fold over the slots, and the settling then makes unload touches
alone. -/
theorem stopFinishesTheWaitingOrders : Obligations.StopFinishesTheWaitingOrders := by
  unfold Obligations.StopFinishesTheWaitingOrders
  intro s once hl hc
  rw [execStop_eq hl hc]
  refine ⟨_, rfl, ?_⟩
  obtain ⟨p, stopped, finish⟩ := Engine.surveyStopped_eq { s.front with ctl := .draining } s.engine
  generalize hx : { s.front with ctl := Ctl.draining } = x at *
  generalize he : s.engine.surveyStopped x = e at *
  have hxc : x.ctl = .draining := by rw [← hx]
  have hn : (e.held.map Order.slot).Nodup := by rw [stopped]; exact once.once
  have bound := Engine.stopAll_not_bound x e hn
  obtain ⟨survey, log, desks⟩ := Engine.stopAll_frame x e hn
  obtain ⟨ctl, config, done, intake, around⟩ :=
    State.settle_draining (s := { s with front := x, engine := e.stopAll x }) hxc bound
  have survey' := (around.survey.trans survey).trans (congrArg Engine.survey stopped)
  have held' := around.held.trans ((Engine.stopAll_held x e hn).trans (congrArg (List.map _ ·.held) stopped))
  refine ⟨ctl, (config.trans (Engine.stopAll_settle_drained_iff hxc hn)).trans ?_, ?_, ?_, ?_, ?_, ?_, fun d hd => ?_,
    fun hd => ?_, done.trans (hx ▸ rfl), intake.trans (hx ▸ rfl), State.settle_mem _,
    (around.log.trans log).trans (by rw [stopped]),
    (around.deskHeld.trans desks).trans (by rw [stopped]),
    fun o ho => ⟨fun hf hw => ?_, fun hr hf => ?_⟩⟩
  · rw [finish, Engine.finishOutstanding_iff, stopped]
    refine and_congr_right' (and_congr_left' (forall_congr' fun c => ?_))
    rw [Channel.free_iff]
    exact ⟨fun ⟨⟨state, order, deferred⟩, touch, timers⟩ => ⟨state, order, touch, deferred, timers⟩,
      fun ⟨state, order, touch, deferred, timers⟩ => ⟨⟨state, order, deferred⟩, touch, timers⟩⟩
  · rw [survey']; rfl
  · rw [survey']; rfl
  · rw [survey']; rfl
  · rw [survey']; rfl
  · rw [survey']; rfl
  · rw [survey']; simp [Survey.stop, hd]
  · rw [survey']; simp [Survey.stop, hd]
  · rw [held']
    refine ⟨_, List.mem_map_of_mem ho, Order.stopped_slot o, ?_⟩
    rw [Order.stopped_of_waiting (by simp [hf, hw])]
    rfl
  · rw [held']
    exact List.mem_map.mpr ⟨o, ho, Order.stopped_of_not (by simp [hr])⟩

end Sys2Proof.Machine

namespace Sys2Proof.Machine

/-! ### Operations about the order of one slot

`ActsOn` says what an operation about one order leaves: the orders of the other slots, and the channels that have one
of them in hand. -/

/-- An operation about the order of one slot: a channel is as it was, or has no order in hand any more, or has the
slot's and is asked to stop. -/
structure Engine.ActsOn (slot : Nat) (e e' : Engine) : Prop where
  others : ∀ s, s ≠ slot → e'.order? s = e.order? s
  chans : ∀ c, e'.chan c = e.chan c ∨ (e'.chan c).order = none ∨
    ((e'.chan c).order = some slot ∧ (e'.chan c).stopping = true)
  generation : ∀ d, (e'.drive d).generation = (e.drive d).generation

theorem Engine.order?_congr {e e' : Engine} (h : e'.held = e.held) (s : Nat) : e'.order? s = e.order? s := by
  unfold Engine.order?
  rw [h]

theorem Engine.order?_updOrder_of_ne (e : Engine) {slot s : Nat} (h : s ≠ slot) (f : Order → Order)
    (hf : ∀ o, (f o).slot = o.slot) : (e.updOrder slot f).order? s = e.order? s := by
  unfold Engine.order? Engine.updOrder
  dsimp only
  induction e.held with
  | nil => rfl
  | cons o os ih =>
    by_cases ho : o.slot = slot
    · have hs : (o.slot == s) = false := by simpa [ho] using Ne.symm h
      have hs' : ((f o).slot == s) = false := by rw [hf]; exact hs
      simp only [List.map_cons, ho, beq_self_eq_true, if_true, List.find?_cons, hs', ho ▸ hs]
      exact ih
    · have : (o.slot == slot) = false := by simpa using ho
      simp only [List.map_cons, this, Bool.false_eq_true, if_false, List.find?_cons, ih]

section
variable {slot : Nat} {a e e' : Engine}

theorem Engine.ActsOn.refl (slot : Nat) (e : Engine) : e.ActsOn slot e :=
  ⟨fun _ _ => rfl, fun _ => .inl rfl, fun _ => rfl⟩

theorem Engine.ActsOn.trans {b c : Engine} (h : a.ActsOn slot b) (k : b.ActsOn slot c) : a.ActsOn slot c where
  others s hs := (k.others s hs).trans (h.others s hs)
  chans d := by
    rcases k.chans d with hk | hk
    · rw [hk]
      exact h.chans d
    · exact .inr hk
  generation d := (k.generation d).trans (h.generation d)

/-- A channel that has another slot's order in hand afterwards is as it was. -/
theorem Engine.ActsOn.chan_eq (h : e.ActsOn slot e') {c : Side} {s : Nat} (hs : s ≠ slot)
    (ho : (e'.chan c).order = some s) : e'.chan c = e.chan c := by
  rcases h.chans c with k | k | ⟨k, -⟩
  · exact k
  · rw [k] at ho; cases ho
  · rw [k] at ho; exact absurd (Option.some.inj ho).symm hs

/-- A channel asked to stop stays so while it has the slot's order in hand. -/
theorem Engine.ActsOn.stopping (h : e.ActsOn slot e') {c : Side}
    (hc : (e.chan c).order = some slot → (e.chan c).stopping = true) (ho : (e'.chan c).order = some slot) :
    (e'.chan c).stopping = true := by
  rcases h.chans c with k | k | ⟨-, k⟩
  · rw [k] at ho ⊢; exact hc ho
  · rw [k] at ho; cases ho
  · exact k

/-- A change of neither the list, nor the channels, nor what is known of the drives. -/
theorem Engine.ActsOn.of_same (held : e'.held = e.held) (channels : e'.channels = e.channels)
    (drives : e'.drives = e.drives) : e.ActsOn slot e' :=
  ⟨fun s _ => Engine.order?_congr held s, fun c => .inl (by rw [Engine.chan, Engine.chan, channels]),
    fun d => by rw [Engine.drive, Engine.drive, drives]⟩

theorem Engine.ActsOn.updOrder (e : Engine) {f : Order → Order} (hf : ∀ o, (f o).slot = o.slot) :
    e.ActsOn slot (e.updOrder slot f) :=
  ⟨fun _ hs => e.order?_updOrder_of_ne hs f hf, fun _ => .inl rfl, fun _ => rfl⟩

/-- A change of one channel, which then has no order in hand, or the slot's and is asked to stop. -/
theorem Engine.ActsOn.of_onlyChannel {c : Side} (only : e.OnlyChannel c e')
    (h : (e'.chan c).order = none ∨ ((e'.chan c).order = some slot ∧ (e'.chan c).stopping = true))
    (generation : ∀ d, (e'.drive d).generation = (e.drive d).generation) : e.ActsOn slot e' where
  others s _ := only.order? s
  chans d := by
    by_cases hd : d = c
    · subst hd
      exact .inr h
    · rw [Side.eq_other_of_ne hd]
      exact .inl only.other
  generation := generation

end

/-! ### Orders whose run can end in one way only (R21, R27, R29)

A running order that a WITHDRAW or ABORT_ALL has marked, or whose medium has changed, ends with that code whatever
else befalls it. `Judged` names such an order, and `Goes` what may still happen to its record. -/

/-- The order has its finish, or runs and can end with a mark's code or with MEDIUM_CHANGED alone. -/
def Order.Judged (o : Order) : Prop :=
  o.finish ≠ none ∨ (o.state = .running ∧ (o.withdrawMark = some .withdrawn ∨ o.withdrawMark = some .aborted ∨
    (o.withdrawMark = none ∧ o.changedMedium = true)))

/-- The record of a judged order goes on: it keeps what it is, and finishes, if at all, with its code. -/
structure Order.Goes (o o' : Order) : Prop where
  slot : o'.slot = o.slot
  fields : o'.fields = o.fields
  state : o'.state = o.state
  mark : o'.withdrawMark = o.withdrawMark
  change : o.changedMedium = true → o'.changedMedium = true
  finish : o'.finish = o.finish ∨ (o.finish = none ∧ o'.finish = some (o.withdrawMark.getD .mediumChanged))

theorem Order.Goes.refl (o : Order) : o.Goes o := ⟨rfl, rfl, rfl, rfl, id, .inl rfl⟩

theorem Order.Goes.trans {a b c : Order} (h : a.Goes b) (k : b.Goes c) : a.Goes c where
  slot := k.slot.trans h.slot
  fields := k.fields.trans h.fields
  state := k.state.trans h.state
  mark := k.mark.trans h.mark
  change hc := k.change (h.change hc)
  finish := by
    rcases k.finish with hk | ⟨hk, hk'⟩ <;> rcases h.finish with hh | ⟨hh, hh'⟩
    · exact .inl (hk.trans hh)
    · exact .inr ⟨hh, hk.trans hh'⟩
    · exact .inr ⟨hh.symm.trans hk, by rw [hk', h.mark]⟩
    · exact .inr ⟨hh, by rw [hk', h.mark]⟩

theorem Order.Goes.judged {o o' : Order} (h : o.Goes o') (j : o.Judged) : o'.Judged := by
  rcases j with hf | ⟨hs, hm⟩
  · rcases h.finish with hk | ⟨hk, -⟩
    · exact .inl (hk ▸ hf)
    · exact absurd hk hf
  · refine .inr ⟨h.state.trans hs, ?_⟩
    rw [h.mark]
    exact hm.imp_right (Or.imp_right (And.imp_right h.change))

/-- The code a judged order ends with (R21, R70). -/
theorem Order.Judged.endCode {o : Order} (j : o.Judged) (hf : o.finish = none) :
    o.endCode = o.withdrawMark.getD .mediumChanged ∧ o.endCode ≠ .ok ∧ o.endCode.endsStanding = true := by
  rcases j with h | ⟨-, h | h | ⟨h, hc⟩⟩
  · exact absurd hf h
  · rw [Order.endCode_of_mark h, h]
    exact ⟨rfl, by decide, rfl⟩
  · rw [Order.endCode_of_mark h, h]
    exact ⟨rfl, by decide, rfl⟩
  · rw [Order.endCode_of_change h hc, h]
    exact ⟨rfl, by decide, rfl⟩

/-- The order of the slot, if there is one, is judged. -/
def Engine.JudgedAt (e : Engine) (slot : Nat) : Prop := ∀ o, e.order? slot = some o → o.Judged

/-- The order of the slot goes on, if there is one. -/
def Engine.GoesAt (slot : Nat) (e e' : Engine) : Prop := Option.Rel Order.Goes (e.order? slot) (e'.order? slot)

/-- An operation about the order of one slot, which is judged and goes on. -/
structure Engine.Carries (slot : Nat) (e e' : Engine) : Prop where
  acts : e.ActsOn slot e'
  goes : e.GoesAt slot e'

section
variable {slot : Nat} {a e e' : Engine}

theorem Engine.GoesAt.of_order? (h : e'.order? slot = e.order? slot) : e.GoesAt slot e' := by
  unfold Engine.GoesAt
  rw [h]
  cases e.order? slot with
  | none => exact .none
  | some o => exact .some (.refl o)

theorem Engine.GoesAt.refl (slot : Nat) (e : Engine) : e.GoesAt slot e := .of_order? rfl

theorem Engine.GoesAt.trans {b c : Engine} (h : a.GoesAt slot b) (k : b.GoesAt slot c) : a.GoesAt slot c := by
  unfold Engine.GoesAt at *
  generalize a.order? slot = x at h ⊢
  generalize b.order? slot = y at h k
  generalize c.order? slot = z at k ⊢
  cases h with
  | none => exact k
  | some h =>
    cases k with
    | some k => exact .some (h.trans k)

theorem Engine.GoesAt.some (h : a.GoesAt slot e) {o : Order} (ho : a.order? slot = some o) :
    ∃ o', e.order? slot = Option.some o' ∧ o.Goes o' := by
  unfold Engine.GoesAt at h
  rw [ho] at h
  generalize e.order? slot = z at h ⊢
  cases h with
  | some h => exact ⟨_, rfl, h⟩

theorem Engine.GoesAt.judged (h : a.GoesAt slot e) (j : a.JudgedAt slot) : e.JudgedAt slot := by
  intro o ho
  unfold Engine.GoesAt at h
  rw [ho] at h
  generalize hz : a.order? slot = z at h
  cases h with
  | some h => exact h.judged (j _ hz)

theorem Engine.Carries.refl (slot : Nat) (e : Engine) : e.Carries slot e := ⟨.refl slot e, .refl slot e⟩

theorem Engine.Carries.trans {b c : Engine} (h : a.Carries slot b) (k : b.Carries slot c) : a.Carries slot c :=
  ⟨h.acts.trans k.acts, h.goes.trans k.goes⟩

theorem Engine.Carries.of_same (held : e'.held = e.held) (channels : e'.channels = e.channels)
    (drives : e'.drives = e.drives) : e.Carries slot e' :=
  ⟨.of_same held channels drives, .of_order? (Engine.order?_congr held slot)⟩

theorem Engine.GoesAt.updOrder (e : Engine) {f : Order → Order} (hf : ∀ o, (f o).slot = o.slot)
    (h : ∀ o, e.order? slot = Option.some o → o.Goes (f o)) : e.GoesAt slot (e.updOrder slot f) := by
  unfold Engine.GoesAt
  rw [Engine.order?_updOrder e slot f hf]
  cases ho : e.order? slot with
  | none => exact .none
  | some o => exact .some (h o ho)

theorem Engine.Carries.updOrder (e : Engine) {f : Order → Order}
    (h : ∀ o : Order, o.Goes (f o)) : e.Carries slot (e.updOrder slot f) :=
  ⟨.updOrder e fun o => (h o).slot, .updOrder e (fun o => (h o).slot) fun o _ => h o⟩

theorem Engine.Carries.of_onlyChannel {c : Side} (only : e.OnlyChannel c e')
    (h : (e'.chan c).order = none ∨ ((e'.chan c).order = some slot ∧ (e'.chan c).stopping = true))
    (generation : ∀ d, (e'.drive d).generation = (e.drive d).generation) : e.Carries slot e' :=
  ⟨.of_onlyChannel only h generation, .of_order? (only.order? slot)⟩

theorem Engine.Carries.foldl {ι : Type} {f : Engine → ι → Engine} (h : ∀ (e : Engine) (i : ι), e.Carries slot (f e i))
    (l : List ι) : ∀ e : Engine, e.Carries slot (l.foldl f e) := by
  induction l with
  | nil => exact .refl slot
  | cons i l ih => exact fun e => (h e i).trans (ih _)

end

/-! ### The end of a judged order's run (R24, R70, R116) -/

section
variable (x : Front) {e : Engine} {slot : Nat}

theorem Order.Goes.of_reservation (o : Order) (n : Nat) : o.Goes { o with reservation := n } :=
  ⟨rfl, rfl, rfl, rfl, id, .inl rfl⟩

theorem Engine.Carries.reserved (e : Engine) (slot n : Nat) : e.Carries slot { e with reserved := n } :=
  .of_same rfl rfl rfl

theorem Engine.unreserve_carries (e : Engine) (slot : Nat) : e.Carries slot (e.unreserve x slot) := by
  unfold Engine.unreserve
  split
  · exact .refl slot e
  · rename_i o _
    split
    · exact .refl slot e
    · exact (Engine.Carries.reserved e slot (e.reserved - o.reservation)).trans
        ((Engine.Carries.updOrder _ fun o => .of_reservation o 0).trans (.of_same rfl rfl rfl))

theorem Engine.spend_carries (e : Engine) (slot : Nat) : e.Carries slot (e.spend slot) := by
  unfold Engine.spend
  split
  · exact .refl slot e
  · split
    · exact .refl slot e
    · exact (Engine.Carries.reserved e slot (e.reserved - 1)).trans
        (Engine.Carries.updOrder _ fun o => .of_reservation o (o.reservation - 1))

theorem Engine.spent_carries (e : Engine) (slot i : Nat) (isDone : Bool) :
    e.Carries slot ((e.spend slot).markResolved slot i isDone) :=
  (Engine.spend_carries e slot).trans (.updOrder _ fun _ => ⟨rfl, rfl, rfl, rfl, id, .inl rfl⟩)

theorem Engine.writeReserved_carries (e : Engine) (slot : Nat) : e.Carries slot (e.writeReserved x) :=
  .of_same rfl rfl rfl

theorem Engine.logOutcome_carries (e : Engine) (o : Order) (pl : Place) (good : Side) :
    e.Carries o.slot (e.logOutcome x o pl good) := by
  unfold Engine.logOutcome
  split
  · obtain ⟨held, channels, -, drives⟩ := Engine.logSet_frame x e
      { pair := o.pair, good := good, place := pl, origin := o.slot, originKind := o.kind }
    exact (Engine.Carries.of_same held channels drives).trans
      (.updOrder _ fun _ => ⟨rfl, rfl, rfl, rfl, id, .inl rfl⟩)
  · exact Engine.writeReserved_carries x e _

theorem Engine.resolveWrite_carries (e : Engine) (o : Order) (i : Nat) (final : Bool) :
    e.Carries o.slot (e.resolveWrite x o i final).1 := by
  unfold Engine.resolveWrite
  dsimp only
  split
  · have spent := Engine.spent_carries e o.slot i (o.entry .A i == .done || o.entry .B i == .done)
    split
    · split
      · obtain ⟨held, channels, -, drives⟩ := Engine.logRemove_frame x ((e.spend o.slot).markResolved o.slot i
          (o.entry .A i == .done || o.entry .B i == .done)) fun l => l.pair == o.pair && l.place == o.place x i
        exact spent.trans (.of_same held channels drives)
      · exact spent.trans (Engine.writeReserved_carries x _ _)
    · exact spent.trans (Engine.logOutcome_carries x _ o _ _)
    · exact spent.trans (Engine.logOutcome_carries x _ o _ _)
    · exact spent.trans (Engine.writeReserved_carries x _ _)
  · exact .refl o.slot e

theorem Engine.resolveCheck_carries (e : Engine) (o : Order) (i : Nat) (final : Bool) :
    e.Carries o.slot (e.resolveCheck x o i final).1 := by
  have kept (b : Bool) : e.Carries o.slot (((e.spend o.slot).markResolved o.slot i b).writeReserved x) :=
    (Engine.spent_carries e o.slot i b).trans (Engine.writeReserved_carries x _ _)
  have logged (b p : Bool) (c : Side) : e.Carries o.slot
      (if p = true then ((e.spend o.slot).markResolved o.slot i b).logOutcome x o (o.place x i) c
        else ((e.spend o.slot).markResolved o.slot i b).writeReserved x) := by
    split
    · exact (Engine.spent_carries e o.slot i b).trans (Engine.logOutcome_carries x _ o _ c)
    · exact kept b
  unfold Engine.resolveCheck
  dsimp only
  split
  · split
    · exact kept false
    · split
      · exact kept true
      · exact logged true _ .A
      · exact logged true _ .B
      · exact kept false
  · exact .refl o.slot e

theorem Engine.resolveOnce_carries (e : Engine) (slot i : Nat) (final : Bool) :
    e.Carries slot (e.resolveOnce x slot i final).1 := by
  unfold Engine.resolveOnce
  split
  · exact .refl slot e
  · rename_i o ho
    obtain ⟨-, rfl⟩ := Engine.order?_mem ho
    split
    · split
      case h_1 => exact Engine.resolveWrite_carries x e o i final
      case h_2 =>
        split
        · exact Engine.resolveWrite_carries x e o i final
        · exact .refl o.slot e
      case h_3 => exact Engine.resolveWrite_carries x e o i final
      case h_4 => exact Engine.resolveCheck_carries x e o i final
      all_goals exact .refl o.slot e
    · exact .refl o.slot e

theorem Engine.resolveRest_carries (e : Engine) (slot : Nat) : e.Carries slot (e.resolveRest x slot) := by
  unfold Engine.resolveRest
  split
  · exact .refl slot e
  · exact .foldl (fun e i => Engine.resolveOnce_carries x e slot i true) _ _

theorem Engine.decideFinish_acts (e : Engine) (slot : Nat) (code : FinishCode) (late : Bool) :
    e.ActsOn slot (e.decideFinish x slot code late) := by
  unfold Engine.decideFinish
  split
  · exact .refl slot e
  · split
    · exact .refl slot e
    · exact (Engine.unreserve_carries x e slot).acts.trans
        ((Engine.ActsOn.updOrder _ (f := (Order.finished · code)) fun _ => rfl).trans (.of_same rfl rfl rfl))

/-- A judged order that finishes with its code goes on. -/
theorem Engine.decideFinish_carries {o : Order} (ho : e.order? slot = some o) (hf : o.finish = none)
    {code : FinishCode} (hc : code = o.withdrawMark.getD .mediumChanged) (late : Bool) :
    e.Carries slot (e.decideFinish x slot code late) := by
  refine ⟨Engine.decideFinish_acts x e slot code late, ?_⟩
  unfold Engine.GoesAt
  rw [Engine.decideFinish_order? x ho hf, ho]
  exact .some ⟨rfl, rfl, rfl, rfl, id, .inr ⟨hf, congrArg some hc⟩⟩

theorem Engine.endRun_carries (j : e.JudgedAt slot) : e.Carries slot (e.endRun x slot) := by
  have ended : e.Carries slot (e.ended x slot) := (Engine.resolveRest_carries x e slot).trans
    (.updOrder _ fun _ => ⟨rfl, rfl, rfl, rfl, id, .inl rfl⟩)
  have j' := ended.goes.judged j
  have eq : e.endRun x slot =
      match (e.ended x slot).order? slot with
      | none => e.ended x slot
      | some o =>
        if o.finish.isSome then e.ended x slot
        else if o.kind = .mend ∧ o.endCode = .ok then (e.ended x slot).endTurn x o
        else if o.fields.standing ∧ o.endCode.endsStanding = false then
          if x.ctl = .run then (e.ended x slot).backToStanding x slot o.endCode
          else (e.ended x slot).decideFinish x slot .stopped false
        else (e.ended x slot).decideFinish x slot o.endCode false := rfl
  rw [eq]
  split
  · exact ended
  · rename_i o ho
    cases hf : o.finish with
    | some _ => exact ended
    | none =>
      obtain ⟨code, notOk, ends⟩ := (j' o ho).endCode hf
      simp only [Option.isSome_none, Bool.false_eq_true, if_false, notOk, and_false, ends, Bool.true_eq_false]
      exact ended.trans (Engine.decideFinish_carries x ho hf code false)

/-! ### A channel lets go of a judged order (R116, R117) -/

theorem Engine.enter_generation (e : Engine) (c : Side) (st : ChannelState) (d : Drive) :
    ((e.enter x c st).drive d).generation = (e.drive d).generation := by
  unfold Engine.enter
  split <;> rfl

theorem Engine.deselect_generation (e : Engine) (c : Side) (survey : Bool) (notice : Option Notice) (d : Drive) :
    ((e.deselect x c survey notice).drive d).generation = (e.drive d).generation := by
  have timed (e : Engine) (d' : Drive) (t : Timer) :
      ((if survey = true then e else e.setTimer d' t).drive d).generation = (e.drive d).generation := by
    cases survey <;> rfl
  cases hp : (e.chan c).selected with
  | none => rw [Engine.deselect_of_none x hp]
  | some p =>
    simp only [Engine.deselect, hp]
    refine (congrArg Knowledge.generation (Engine.drive_setDrive_eq _ _ d _)).trans ?_
    split
    · rename_i h
      subst h
      exact timed _ _ _
    · exact timed _ _ _

theorem Engine.released_carries (e : Engine) (c : Side) (slot : Nat) : e.Carries slot (e.released x c) :=
  .of_onlyChannel (Engine.released_onlyChannel x e c) (.inl (Engine.released_letGo x e c).2.1) fun d =>
    (Engine.enter_generation x _ c _ d).trans (Engine.deselect_generation x e c false none d)

/-- A channel releases a judged order, or has none in hand. -/
theorem Engine.release_carries {c : Side} (h : (e.chan c).order = none ∨ (e.chan c).order = some slot)
    (j : e.JudgedAt slot) : e.Carries slot (e.release x c) := by
  have released := Engine.released_carries x e c slot
  rcases h with h | h
  · have : e.release x c = e.released x c := by
      unfold Engine.release
      rw [h]
      rfl
    rwa [this]
  · rw [Engine.release_eq x h]
    split
    · exact released
    · exact released.trans (Engine.endRun_carries x (released.goes.judged j))

theorem Engine.tryClean_carries {c : Side}
    (h : (e.chan c).order = none ∨ ((e.chan c).order = some slot ∧ (e.chan c).stopping = true)) (j : e.JudgedAt slot) :
    e.Carries slot (e.tryClean x c) := by
  unfold Engine.tryClean
  split
  · split
    · refine .of_onlyChannel (Engine.updChan_onlyChannel e c _) ?_ fun _ => rfl
      rw [Engine.rest, Engine.chan_updChan e c fun ch => { ch with act := .none, headLoad := e.keptLoad c }]
      exact h
    · exact Engine.release_carries x (h.imp_right And.left) j
  · exact .refl slot e

/-- A channel is asked to stop. -/
def Channel.asked (ch : Channel) : Channel := { ch with stopping := true }

theorem Engine.stopChannel_carries (c : Side) (j : e.JudgedAt slot) : e.Carries slot (e.stopChannel x c slot) := by
  by_cases h : (e.chan c).order = some slot
  · have asked : (e.updChan c Channel.asked).chan c = (e.chan c).asked := Engine.chan_updChan e c Channel.asked
    have order : (((e.updChan c Channel.asked).chan c).order = some slot ∧
        ((e.updChan c Channel.asked).chan c).stopping = true) := by
      rw [asked]
      exact ⟨h, rfl⟩
    have first : e.Carries slot (e.updChan c Channel.asked) :=
      .of_onlyChannel (Engine.updChan_onlyChannel e c _) (.inr order) fun _ => rfl
    have eq : e.stopChannel x c slot = (e.updChan c Channel.asked).tryClean x c := if_pos h
    rw [eq]
    exact first.trans (Engine.tryClean_carries x (.inr order) (first.goes.judged j))
  · rw [Engine.stopChannel, if_neg h]
    exact .refl slot e

/-- A channel asked to stop that still has the order in hand does so at its clean point. -/
theorem Engine.stopChannel_stopping (c : Side) (j : e.JudgedAt slot)
    (h : ((e.stopChannel x c slot).chan c).order = some slot) : ((e.stopChannel x c slot).chan c).stopping = true := by
  by_cases ho : (e.chan c).order = some slot
  · have asked : (e.updChan c Channel.asked).chan c = (e.chan c).asked := Engine.chan_updChan e c Channel.asked
    have eq : e.stopChannel x c slot = (e.updChan c Channel.asked).tryClean x c := if_pos ho
    have order : (((e.updChan c Channel.asked).chan c).order = some slot ∧
        ((e.updChan c Channel.asked).chan c).stopping = true) := by
      rw [asked]
      exact ⟨ho, rfl⟩
    have clean := Engine.tryClean_carries x (e := e.updChan c Channel.asked) (.inr order) j
    rw [eq] at h ⊢
    exact clean.acts.stopping (fun _ => order.2) h
  · rw [Engine.stopChannel, if_neg ho] at h
    exact absurd h ho

theorem Engine.stopOrder_carries (j : e.JudgedAt slot) : e.Carries slot (e.stopOrder x slot) :=
  (Engine.stopChannel_carries x .A j).trans
    (Engine.stopChannel_carries x .B ((Engine.stopChannel_carries x .A j).goes.judged j))

/-- Every channel that still has the order in hand is asked to stop (R117). -/
theorem Engine.stopOrder_stopping (j : e.JudgedAt slot) (c : Side)
    (h : ((e.stopOrder x slot).chan c).order = some slot) : ((e.stopOrder x slot).chan c).stopping = true := by
  have j' := (Engine.stopChannel_carries x .A j).goes.judged j
  cases c with
  | A => exact (Engine.stopChannel_carries x .B j').acts.stopping (Engine.stopChannel_stopping x .A j) h
  | B => exact Engine.stopChannel_stopping x .B j' h

/-! ### An order that waits finishes (R20, R27 to R29) -/

theorem Engine.tryClean_generation_of_none {c : Side} (h : (e.chan c).order = none) (d : Drive) :
    ((e.tryClean x c).drive d).generation = (e.drive d).generation := by
  unfold Engine.tryClean Engine.release
  rw [h]
  split
  · split
    · rfl
    · exact (Engine.enter_generation x _ c _ d).trans (Engine.deselect_generation x e c false none d)
  · rfl

theorem Engine.freeWaiter_acts (e : Engine) (c : Side) (slot : Nat) : e.ActsOn slot (e.freeWaiter x c slot) := by
  by_cases h : (e.chan c).order = some slot
  · refine .of_onlyChannel (Engine.freeWaiter_onlyChannel x e c slot) (.inl (Engine.freeWaiter_order x h)) fun d => ?_
    unfold Engine.freeWaiter
    split
    · rfl
    · split
      · rfl
      · exact Engine.tryClean_generation_of_none x (by simp) d
  · rw [Engine.freeWaiter, if_pos h]
    exact .refl slot e

theorem Engine.finishWaiting_acts (e : Engine) (slot : Nat) (code : FinishCode) (late : Bool) :
    e.ActsOn slot (e.finishWaiting x slot code late) := by
  have decided := Engine.decideFinish_acts x e slot code late
  cases ho : e.order? slot with
  | none => simpa only [Engine.finishWaiting, ho] using Engine.ActsOn.refl slot e
  | some o =>
    cases hw : o.waiter with
    | none => rwa [Engine.finishWaiting_of_noWaiter x ho hw]
    | some c =>
      rw [Engine.finishWaiting_of_waiter x ho hw]
      exact decided.trans (Engine.freeWaiter_acts x _ c slot)

end

/-! ### Going through the orders -/

/-- The order of a slot, and the channels that have it in hand, are touched by the operation at that slot alone, when
an operation about single orders goes through the list. -/
theorem Engine.foldl_slots_at {g : Engine → Nat → Engine} {C : Order → Prop}
    (h : ∀ (e : Engine) (s : Nat) (o : Order), e.order? s = some o → C o → e.ActsOn s (g e s))
    {e : Engine} (hn : (e.held.map Order.slot).Nodup) (all : ∀ o ∈ e.held, C o) {o : Order} (ho : o ∈ e.held) :
    let e' := (e.held.map Order.slot).foldl g e
    ∃ e1, e1.order? o.slot = some o ∧ (∀ d, (e1.drive d).generation = (e.drive d).generation) ∧
      e'.order? o.slot = (g e1 o.slot).order? o.slot ∧
      ∀ c, (e'.chan c).order = some o.slot → e'.chan c = (g e1 o.slot).chan c := by
  have through (m : List Nat) : ∀ e : Engine, m.Nodup → (∀ s ∈ m, ∃ o, e.order? s = some o ∧ C o) →
      (∀ t, t ∉ m → (m.foldl g e).order? t = e.order? t) ∧
      (∀ c t, t ∉ m → ((m.foldl g e).chan c).order = some t → (m.foldl g e).chan c = e.chan c) ∧
      ∀ d, ((m.foldl g e).drive d).generation = (e.drive d).generation := by
    induction m with
    | nil => exact fun e _ _ => ⟨fun _ _ => rfl, fun _ _ _ _ => rfl, fun _ => rfl⟩
    | cons n m ih =>
      intro e hm hs
      obtain ⟨hnm, hm⟩ := List.nodup_cons.mp hm
      obtain ⟨o, ho, hc⟩ := hs n List.mem_cons_self
      have acts := h e n o ho hc
      obtain ⟨orders, chans, generation⟩ := ih (g e n) hm fun s hsm => by
        rw [acts.others s fun hsn => hnm (hsn ▸ hsm)]
        exact hs s (List.mem_cons_of_mem n hsm)
      refine ⟨fun t ht => ?_, fun c t ht hc => ?_, fun d => (generation d).trans (acts.generation d)⟩
      · obtain ⟨hne, ht⟩ := List.ne_and_not_mem_of_not_mem_cons ht
        exact (orders t ht).trans (acts.others t hne)
      · obtain ⟨hne, ht⟩ := List.ne_and_not_mem_of_not_mem_cons ht
        have rest := chans c t ht hc
        exact rest.trans (acts.chan_eq hne (rest ▸ hc))
  obtain ⟨l, r, split⟩ := List.append_of_mem (List.mem_map_of_mem (f := Order.slot) ho)
  have found (s : Nat) (hs : s ∈ e.held.map Order.slot) : ∃ o, e.order? s = some o ∧ C o := by
    obtain ⟨o, ho, rfl⟩ := List.mem_map.mp hs
    exact ⟨o, Engine.order?_of_mem hn ho, all o ho⟩
  have parts := split ▸ hn
  obtain ⟨hl, hr, disjoint⟩ := List.nodup_append.mp parts
  obtain ⟨notR, hr⟩ := List.nodup_cons.mp hr
  have notL : o.slot ∉ l := fun hm => disjoint _ hm _ List.mem_cons_self rfl
  obtain ⟨before, -, generation⟩ := through l e hl fun s hs => found s (split ▸ List.mem_append_left _ hs)
  have own : (l.foldl g e).order? o.slot = some o := (before _ notL).trans (Engine.order?_of_mem hn ho)
  have acts := h _ _ o own (all o ho)
  obtain ⟨after, chans, -⟩ := through r (g (l.foldl g e) o.slot) hr fun s hs => by
    have hsl : s ∉ l := fun hm => disjoint _ hm _ (List.mem_cons_of_mem _ hs) rfl
    rw [acts.others s fun h => notR (h ▸ hs), before s hsl]
    exact found s (split ▸ List.mem_append_right _ (List.mem_cons_of_mem _ hs))
  refine ⟨l.foldl g e, own, generation, ?_⟩
  rw [split, List.foldl_append, List.foldl_cons]
  exact ⟨after _ notR, fun c => chans c _ notR⟩

end Sys2Proof.Machine

namespace Sys2Proof.Machine

/-! ### A medium change meets an order (R24, R27) -/

/-- The order's finish is not decided, and the drive has another generation than it was accepted under. -/
def Order.meetsChange (e : Engine) (d : Drive) (o : Order) : Prop :=
  o.finish = none ∧ o.fields.covers d = true ∧ o.generation.get d.side ≠ some (e.drive d).generation

/-- The mark that an order may have. -/
def Order.MarkKnown (o : Order) : Prop :=
  o.withdrawMark = none ∨ o.withdrawMark = some .withdrawn ∨ o.withdrawMark = some .aborted

/-- The record of an order whose medium has changed. -/
def Order.noted (o : Order) : Order := { o with changedMedium := true }

theorem Order.noted_judged {o : Order} (hr : o.state = .running) (hm : o.MarkKnown) : o.noted.Judged := by
  refine .inr ⟨hr, ?_⟩
  rcases hm with h | h | h
  · exact .inr (.inr ⟨h, rfl⟩)
  · exact .inl h
  · exact .inr (.inl h)

section
variable (x : Front) {e : Engine} {d : Drive} {slot : Nat} {o : Order}

theorem Order.meetsChange_iff : o.meetsChange e d ↔
    ¬(o.finish.isSome || !(o.covers d) || (o.generation.get d.side) == some (e.drive d).generation) = true := by
  simp [Order.meetsChange, Order.covers, and_assoc]

theorem Engine.meetChange_of_not (ho : e.order? slot = some o) (h : ¬o.meetsChange e d) :
    e.meetChange x d slot = e := by
  simp only [Engine.meetChange, ho]
  exact if_pos (not_not.mp (Order.meetsChange_iff.not.mp h))

theorem Engine.meetChange_of_waiting (ho : e.order? slot = some o) (h : o.meetsChange e d) (hw : o.state ≠ .running) :
    e.meetChange x d slot = e.finishWaiting x slot .mediumChanged false := by
  simp only [Engine.meetChange, ho]
  refine (if_neg (Order.meetsChange_iff.mp h)).trans ?_
  cases hs : o.state with
  | running => exact absurd hs hw
  | queued => rfl
  | boundWait => rfl
  | waitingRound => rfl

theorem Engine.meetChange_of_running (ho : e.order? slot = some o) (h : o.meetsChange e d) (hr : o.state = .running) :
    e.meetChange x d slot = (e.updOrder slot Order.noted).stopOrder x slot := by
  simp only [Engine.meetChange, ho]
  refine (if_neg (Order.meetsChange_iff.mp h)).trans ?_
  rw [hr]
  rfl

theorem Engine.noted_order? (ho : e.order? slot = some o) :
    (e.updOrder slot Order.noted).order? slot = some o.noted := by
  rw [Engine.order?_updOrder e slot Order.noted fun _ => rfl, ho]
  rfl

theorem Engine.noted_judgedAt (ho : e.order? slot = some o) (hr : o.state = .running) (hm : o.MarkKnown) :
    (e.updOrder slot Order.noted).JudgedAt slot := by
  intro o' ho'
  rw [Engine.noted_order? ho] at ho'
  cases ho'
  exact Order.noted_judged hr hm

/-- A medium change meets the orders one by one. -/
theorem Engine.meetChange_acts (ho : e.order? slot = some o) (hm : o.MarkKnown) :
    e.ActsOn slot (e.meetChange x d slot) := by
  by_cases h : o.meetsChange e d
  · by_cases hr : o.state = .running
    · rw [Engine.meetChange_of_running x ho h hr]
      exact (Engine.ActsOn.updOrder e (f := Order.noted) fun _ => rfl).trans
        (Engine.stopOrder_carries x (Engine.noted_judgedAt ho hr hm)).acts
    · rw [Engine.meetChange_of_waiting x ho h hr]
      exact Engine.finishWaiting_acts x e slot _ _
  · rw [Engine.meetChange_of_not x ho h]
    exact .refl slot e

end

/-- The roster's part of a medium change, order by order (R27). -/
theorem Engine.rosterChange_orders (x : Front) {e : Engine} (d : Drive) (hn : (e.held.map Order.slot).Nodup)
    (marks : ∀ o ∈ e.held, o.MarkKnown) {o : Order} (ho : o ∈ e.held) :
    let e' := e.rosterChange x d
    (o.meetsChange e d → o.state ≠ .running →
      ∃ o' ∈ e'.held, o'.slot = o.slot ∧ o'.fields = o.fields ∧ o'.finish = some .mediumChanged) ∧
    (o.meetsChange e d → o.state = .running →
      ∃ o' ∈ e'.held, o'.slot = o.slot ∧ o'.fields = o.fields ∧ o'.changedMedium = true ∧
        (o'.finish = none ∨ o'.finish = some (o.withdrawMark.getD .mediumChanged)) ∧
        ∀ c, (e'.chan c).order = some o.slot → (e'.chan c).stopping = true) ∧
    (¬o.meetsChange e d → o ∈ e'.held) := by
  obtain ⟨e1, own, generation, order, chans⟩ := Engine.foldl_slots_at
    (g := fun e slot => e.meetChange x d slot) (fun e s o ho hm => Engine.meetChange_acts x ho hm) hn marks ho
  have met (h : o.meetsChange e d) : o.meetsChange e1 d := by
    unfold Order.meetsChange
    rw [generation]
    exact h
  have unmet (h : ¬o.meetsChange e d) : ¬o.meetsChange e1 d := by
    unfold Order.meetsChange
    rw [generation]
    exact h
  refine ⟨fun h hw => ?_, fun h hr => ?_, fun h => ?_⟩
  · rw [Engine.meetChange_of_waiting x own (met h) hw, Engine.finishWaiting_order? x own h.1] at order
    exact ⟨_, (Engine.order?_mem order).1, rfl, rfl, rfl⟩
  · rw [Engine.meetChange_of_running x own (met h) hr] at order chans
    have judged := Engine.noted_judgedAt own hr (marks o ho)
    obtain ⟨o', ho', goes⟩ := (Engine.stopOrder_carries x judged).goes.some (Engine.noted_order? own)
    rw [ho'] at order
    refine ⟨o', (Engine.order?_mem order).1, goes.slot, goes.fields, goes.change rfl, ?_, fun c hc => ?_⟩
    · rcases goes.finish with hf | ⟨-, hf⟩
      · exact .inl (hf.trans h.1)
      · exact .inr hf
    · have same := chans c hc
      have stopped := Engine.stopOrder_stopping x judged c (same ▸ hc)
      exact (congrArg Channel.stopping same).trans stopped
  · rw [Engine.meetChange_of_not x own (unmet h), own] at order
    exact (Engine.order?_mem order).1

/-- The pair manager's part of a medium change on an ATTACHED pair (R73). -/
theorem Engine.pairChange_attached (x : Front) {e : Engine} {d : Drive} (hb : (e.pairs.get d.pair).bound = true)
    (hm : (e.pairs.get d.pair).mode = .attached) :
    let r := e.pairs.get d.pair
    let lost := (e.log.filter fun l => l.pair == d.pair && l.good == d.side).length
    (e.pairChange x d).pairs = e.pairs.set d.pair
        { r with mode := .detached, kept := d.side.other, lost := min 32 (r.lost + lost) } ∧
      (e.pairChange x d).log = e.log.filter (fun l => !(l.pair == d.pair)) ∧
      (e.pairChange x d).held = e.held ∧ (e.pairChange x d).channels = e.channels := by
  intro r lost
  obtain ⟨pairs, log, held, channels, -⟩ := Engine.repair_eq x e d.pair
    { r with mode := .detached, kept := d.side.other, lost := min 32 (r.lost + lost) } (LogEntry.ofPair d.pair)
  have eq : e.pairChange x d = ({ e with
      pairs := e.pairs.set d.pair { r with mode := .detached, kept := d.side.other, lost := min 32 (r.lost + lost) }
      }.writePair x d.pair).logRemove x (LogEntry.ofPair d.pair) := by
    unfold Engine.pairChange
    exact if_pos (by rw [hb, hm]; rfl)
  rw [eq]
  exact ⟨pairs, log, held, channels⟩

theorem Engine.pairChange_of_not (x : Front) {e : Engine} {d : Drive}
    (h : (e.pairs.get d.pair).bound = false ∨ (e.pairs.get d.pair).mode = .detached) : e.pairChange x d = e := by
  unfold Engine.pairChange
  exact if_neg (by rcases h with h | h <;> simp [h])

/-- Settles O55: the roster's part order by order, the pair manager's by the rule of a pair's write-back. -/
theorem mediumChangeReachesOrdersAndPairs : Obligations.MediumChangeReachesOrdersAndPairs := by
  unfold Obligations.MediumChangeReachesOrdersAndPairs
  exact fun x e d => ⟨rfl, fun hn marks o ho => Engine.rosterChange_orders x d hn marks ho,
    Engine.pairChange_attached x, Engine.pairChange_of_not x⟩

end Sys2Proof.Machine

namespace Sys2Proof.Machine

/-! ### An engine whose orders are all judged goes on

After ABORT_ALL every held order has its finish or is marked. `AllGo` follows such an engine through the settling of
the channels: whatever they begin, each order keeps its record and ends, if at all, with its code. -/

/-- Every order is judged, and each has gone on since `a`. -/
structure Engine.AllGo (a e : Engine) : Prop where
  judged : ∀ s, e.JudgedAt s
  goes : ∀ s, a.GoesAt s e

section
variable {x : Front} {a e e' : Engine}

theorem Engine.AllGo.refl (h : ∀ s, e.JudgedAt s) : e.AllGo e := ⟨h, fun s => .refl s e⟩

theorem Engine.AllGo.next (h : a.AllGo e) (k : ∀ s, e.GoesAt s e') : a.AllGo e' :=
  ⟨fun s => (k s).judged (h.judged s), fun s => (h.goes s).trans (k s)⟩

theorem Engine.AllGo.of_held (h : a.AllGo e) (held : e'.held = e.held) : a.AllGo e' :=
  h.next fun s => .of_order? (Engine.order?_congr held s)

theorem Engine.AllGo.carries (h : a.AllGo e) {slot : Nat} (k : e.Carries slot e') : a.AllGo e' :=
  h.next fun s => by
    by_cases hs : s = slot
    · exact hs ▸ k.goes
    · exact .of_order? (k.acts.others s hs)

theorem Engine.AllGo.updOrder (h : a.AllGo e) (slot : Nat) {f : Order → Order} (hf : ∀ o : Order, o.Goes (f o)) :
    a.AllGo (e.updOrder slot f) := h.carries (.updOrder e hf)

theorem Engine.AllGo.foldl {ι : Type} {f : Engine → ι → Engine}
    (hf : ∀ (e : Engine) (i : ι), a.AllGo e → a.AllGo (f e i))
    (l : List ι) : ∀ {e : Engine}, a.AllGo e → a.AllGo (l.foldl f e) := by
  induction l with
  | nil => exact fun h => h
  | cons i l ih => exact fun h => ih (hf _ i h)

theorem Engine.AllGo.release (h : a.AllGo e) (c : Side) : a.AllGo (e.release x c) := by
  cases ho : (e.chan c).order with
  | none => exact h.carries (Engine.release_carries x (slot := 0) (.inl ho) (h.judged 0))
  | some slot => exact h.carries (Engine.release_carries x (.inr ho) (h.judged slot))

theorem Engine.AllGo.tryClean (h : a.AllGo e) (c : Side) : a.AllGo (e.tryClean x c) := by
  unfold Engine.tryClean
  split
  · split
    · exact h.of_held rfl
    · exact h.release c
  · exact h

theorem Engine.AllGo.stopOrder (h : a.AllGo e) (slot : Nat) : a.AllGo (e.stopOrder x slot) :=
  h.carries (Engine.stopOrder_carries x (h.judged slot))

theorem Engine.AllGo.setDrive (h : a.AllGo e) (d : Drive) (k : Knowledge) : a.AllGo (e.setDrive d k) := h.of_held rfl

theorem Engine.AllGo.setState (h : a.AllGo e) (d : Drive) (st : DriveState) (tell : Bool) :
    a.AllGo (e.setState x d st tell) := h.of_held rfl

/-! ### A side fails, or a drive leaves READY (R65, R113, R118, R158) -/

theorem Engine.AllGo.setPending (h : a.AllGo e) (slot : Nat) (code : FinishCode) (pl : Place) :
    a.AllGo (e.setPending x slot code pl) := by
  unfold Engine.setPending
  refine Engine.AllGo.stopOrder ?_ slot
  exact h.updOrder slot fun _ => ⟨rfl, rfl, rfl, rfl, id, .inl rfl⟩

theorem Engine.AllGo.resolve (h : a.AllGo e) (slot i : Nat) : a.AllGo (e.resolve x slot i) := by
  have once : a.AllGo (e.resolveOnce x slot i false).1 := h.carries (Engine.resolveOnce_carries x e slot i false)
  unfold Engine.resolve
  split
  · exact h
  · split
    · rename_i e' he
      rwa [he] at once
    · rename_i e' code he
      rw [he] at once
      exact once.setPending slot code _

theorem Engine.AllGo.resolveAll (h : a.AllGo e) (slot : Nat) : a.AllGo (e.resolveAll x slot) := by
  unfold Engine.resolveAll
  split
  · exact h
  · exact .foldl (fun _ i k => k.resolve slot i) _ h

/-- A side's part in its order is over: its channel has nothing in hand, its copies are given up, and every sector it
has not done is failed (R65, R118). -/
def Engine.sideGivenUp (x : Front) (e : Engine) (c : Side) (slot : Nat) (code : FinishCode) : Engine :=
  let e := e.updChan c fun ch => { ch with act := .ending, writeGate := false, writeData := [], transfers := [] }
  let opened := ((e.order? slot).map fun o => o.copiesOpen x c).getD []
  let e : Engine :=
    if (e.chan c.other).order = some slot then
      e.updChan c.other fun ch => { ch with run := { ch.run with items := ch.run.items.map (Item.wantAgain opened) } }
    else e
  e.updOrder slot fun o =>
    let o := o.failEntries c code
    { o with sideFailure := o.sideFailure.set c ((o.sideFailure.get c).or (some code)) }

/-- The order that has lost a side ends with the code, or its sectors are put to the pair manager (R65). -/
def Engine.reportSide (x : Front) (e : Engine) (slot : Nat) (code : FinishCode) : Engine :=
  match e.order? slot with
  | none => e
  | some o =>
    if o.kind = .mend then e.setPending x slot code Place.origin
    else if o.mirrored then
      if o.kind = .seek ∨ o.kind = .recalibrate then e else e.resolveAll x slot
    else e.setPending x slot code Place.origin

theorem Engine.failSide_eq (x : Front) {e : Engine} {c : Side} {slot : Nat} (h : (e.chan c).order = some slot)
    (code : FinishCode) :
    e.failSide x c code = ((e.sideGivenUp x c slot code).reportSide x slot code).release x c := by
  simp only [Engine.failSide, h]
  rfl

theorem Engine.AllGo.sideGivenUp (h : a.AllGo e) (c : Side) (slot : Nat) (code : FinishCode) :
    a.AllGo (e.sideGivenUp x c slot code) := by
  unfold Engine.sideGivenUp
  dsimp only
  refine Engine.AllGo.updOrder ?_ slot fun _ => ⟨rfl, rfl, rfl, rfl, id, .inl rfl⟩
  split <;> exact h.of_held rfl

theorem Engine.AllGo.reportSide (h : a.AllGo e) (slot : Nat) (code : FinishCode) :
    a.AllGo (e.reportSide x slot code) := by
  unfold Engine.reportSide
  split
  · exact h
  · split
    · exact h.setPending _ _ _
    · split
      · split
        · exact h
        · exact h.resolveAll _
      · exact h.setPending _ _ _

theorem Engine.AllGo.failSide (h : a.AllGo e) (c : Side) (code : FinishCode) : a.AllGo (e.failSide x c code) := by
  cases ho : (e.chan c).order with
  | none => simpa only [Engine.failSide, ho] using h
  | some slot =>
    rw [Engine.failSide_eq x ho]
    exact ((h.sideGivenUp c slot code).reportSide slot code).release c

theorem Engine.AllGo.deselect (h : a.AllGo e) (c : Side) (survey : Bool) (notice : Option Notice) :
    a.AllGo (e.deselect x c survey notice) := h.of_held (Engine.deselect_onlyChannel x e c survey notice).held

theorem Engine.AllGo.setSurvey (h : a.AllGo e) (v : Survey) : a.AllGo (e.setSurvey x v) := by
  unfold Engine.setSurvey
  dsimp only
  split <;> exact h.of_held rfl

theorem Engine.AllGo.endSurveyStep (h : a.AllGo e) (c : Side) : a.AllGo (e.endSurveyStep x c) := by
  unfold Engine.endSurveyStep
  split
  · exact h
  · rename_i d _
    have left (k : Knowledge) (notice : Option Notice) :
        a.AllGo (((e.setDrive d k).deselect x c true notice).toIdle x c) :=
      ((h.of_held (e' := e.setDrive d k) rfl).deselect c true notice).of_held (Engine.toIdle_onlyChannel x _ c).held
    have moved (e' : Engine) (k : a.AllGo e') (b : Bool) (v w : Survey) :
        a.AllGo (if b = true then e'.setSurvey x v else e'.setSurvey x w) := by
      cases b <;> exact k.setSurvey _
    exact moved _ (left _ _) _ _ _

theorem Engine.AllGo.leaveReady (h : a.AllGo e) (d : Drive) (code : FinishCode) : a.AllGo (e.leaveReady x d code) := by
  unfold Engine.leaveReady
  dsimp only
  split
  · split
    · exact h.endSurveyStep _
    · split
      · exact h.tryClean _
      · exact (h.deselect _ false none).of_held rfl
    · exact h.failSide _ _
    · exact h.failSide _ _
    · exact h.failSide _ _
    · exact h
    · exact h
  · exact h

/-! ### A medium change (R27, R73, R152) -/

theorem Order.Judged.running {o : Order} (j : o.Judged) (hf : o.finish = none) : o.state = .running := by
  rcases j with h | h
  · exact absurd hf h
  · exact h.1

theorem Engine.AllGo.meetChange (h : a.AllGo e) (d : Drive) (slot : Nat) : a.AllGo (e.meetChange x d slot) := by
  cases ho : e.order? slot with
  | none => simpa only [Engine.meetChange, ho] using h
  | some o =>
    by_cases hm : o.meetsChange e d
    · rw [Engine.meetChange_of_running x ho hm ((h.judged slot o ho).running hm.1)]
      exact .stopOrder (h.updOrder slot (f := Order.noted) fun _ => ⟨rfl, rfl, rfl, rfl, fun _ => rfl, .inl rfl⟩) slot
    · rwa [Engine.meetChange_of_not x ho hm]

theorem Engine.pairChange_held (x : Front) (e : Engine) (d : Drive) : (e.pairChange x d).held = e.held := by
  unfold Engine.pairChange
  dsimp only
  split
  · exact (Engine.logRemove_frame x _ _).1
  · rfl

theorem Engine.AllGo.mediumChange (h : a.AllGo e) (d : Drive) : a.AllGo (e.mediumChange x d) := by
  have changed (k : Knowledge) : a.AllGo ((e.setDrive d k).rosterChange x d) :=
    .foldl (fun _ slot k => k.meetChange d slot) _ (h.of_held rfl)
  exact ((changed _).of_held (Engine.pairChange_held x _ d)).of_held rfl

/-! ### The selection and its sample (R104, R144 to R147) -/

theorem Engine.AllGo.takeLevel (h : a.AllGo e) (d : Drive) (level : Bool) : a.AllGo (e.takeLevel x d level) := by
  unfold Engine.takeLevel
  extract_lets k tell e'
  have noted : a.AllGo e' := h.setDrive d _
  split
  · split
    · exact noted.setState d _ _
    · exact (noted.setDrive d _).mediumChange d
    all_goals exact noted
  · split
    · exact noted.setState d _ _
    · exact (noted.setState d _ _).leaveReady d .notReady
    · exact noted.setState d _ _
    all_goals exact noted

theorem Engine.AllGo.sampleReady (h : a.AllGo e) (d : Drive) (level : Bool) : a.AllGo (e.sampleReady x d level) := by
  unfold Engine.sampleReady
  extract_lets k run e'
  have noted : a.AllGo e' := h.setDrive d _
  split
  · exact noted.takeLevel d level
  · exact noted

theorem Engine.AllGo.sampleChange (h : a.AllGo e) (d : Drive) (l : Lines) : a.AllGo (e.sampleChange x d l) := by
  unfold Engine.sampleChange
  split
  · extract_lets e'
    have noted : a.AllGo e' := h.setDrive d _
    split
    · exact noted.mediumChange d
    · exact noted
  · exact h

theorem Engine.AllGo.updDrive (h : a.AllGo e) (d : Drive) (f : Knowledge → Knowledge) : a.AllGo (e.updDrive x d f) :=
  h.of_held (Engine.updDrive_frame x e d f).2.2.1

theorem Engine.AllGo.selectionSample (h : a.AllGo e) (d : Drive) : a.AllGo (e.selectionSample x d) := by
  unfold Engine.selectionSample Engine.sampleFlags
  exact ((h.sampleChange d (x.pins.drive d)).sampleReady d _).updDrive d _

theorem Engine.AllGo.select (h : a.AllGo e) (c : Side) (p : PairId) (survey : Bool) :
    a.AllGo (e.select x c p survey) := by
  unfold Engine.select
  extract_lets d e1 e2 k
  have driven : a.AllGo e2 := by
    cases survey <;> exact h.of_held rfl
  exact (driven.setDrive d _).selectionSample d

/-! ### Settling (R31, R115, R157) -/

theorem Engine.AllGo.beginStep (h : a.AllGo e) (c : Side) : a.AllGo (e.beginStep x c) := by
  unfold Engine.beginStep
  split
  · exact h
  · rename_i d _
    extract_lets was e1 e2
    have selected : a.AllGo e1 := .select (h.of_held (Engine.enter_onlyChannel x e c _).held) c d.pair true
    have acted : a.AllGo e2 := selected.of_held rfl
    split
    · exact acted.endSurveyStep c
    · exact acted

theorem Engine.AllGo.takeStep (h : a.AllGo e) (c : Side) (d : Drive) : a.AllGo (e.takeStep x c d) := by
  unfold Engine.takeStep
  extract_lets survey e'
  have taken : a.AllGo e' := h.of_held rfl
  split
  · exact taken.of_held rfl
  · exact taken.beginStep c

/-- The record of an order held back for room. -/
def Order.roomNoted (o : Order) : Order := { o with roomNote := true }

theorem Engine.AllGo.noteRoom (h : a.AllGo e) (c : Side) (slot : Nat) : a.AllGo (e.noteRoom x c slot) := by
  have noted : a.AllGo (e.updOrder slot Order.roomNoted) :=
    h.updOrder slot fun _ => ⟨rfl, rfl, rfl, rfl, id, .inl rfl⟩
  unfold Engine.noteRoom
  split
  · exact h
  · split
    · exact noted.of_held rfl
    · exact h

theorem Engine.AllGo.choose (h : a.AllGo e) (c : Side) : a.AllGo (e.choose x c) := by
  have noted : a.AllGo (e.noteRooms x c) := .foldl (fun _ slot k => k.noteRoom c slot) _ h
  unfold Engine.choose
  dsimp only
  split
  · exact noted
  · exact noted.of_held rfl

theorem Engine.AllGo.not_bound (h : a.AllGo e) (hn : (e.held.map Order.slot).Nodup) : ¬e.Bound :=
  Engine.not_bound_of_waiting_finished fun o ho => (h.judged o.slot o (Engine.order?_of_mem hn ho)).running

theorem Engine.AllGo.takeNext (h : a.AllGo e) (hb : ¬e.Bound) (c : Side) : a.AllGo (e.takeNext x c).1 := by
  simp only [Engine.takeNext, Engine.not_bound_iff.mp hb c]
  split
  · exact h
  · split
    · exact h.choose c
    · split
      · exact h.takeStep c _
      · split
        · exact h.choose c
        · exact (h.choose c).takeStep c _

theorem Engine.AllGo.settleChannel (h : a.AllGo e) (hb : ¬e.Bound) (c : Side) : a.AllGo (e.settleChannel x c).1 := by
  unfold Engine.settleChannel
  dsimp only
  split
  · exact h
  · split
    · split
      · exact h
      · exact h.takeNext hb c
    · split
      · exact h.of_held rfl
      · exact h.takeNext hb c

theorem Engine.Keeps.nodup (h : a.Keeps e) (hn : (a.held.map Order.slot).Nodup) : (e.held.map Order.slot).Nodup := by
  have perm := h.held.map Prod.fst
  simp only [List.map_map, Function.comp_def, Order.key] at perm
  exact perm.nodup_iff.mpr hn

theorem Engine.AllGo.settleLoop (n : Nat) : ∀ {e : Engine}, a.AllGo e → (e.held.map Order.slot).Nodup →
    a.AllGo (e.settleLoop x n) := by
  induction n with
  | zero => exact fun h _ => h
  | succ n ih =>
    intro e h hn
    have keepsA := (Engine.Keeps.refl e).settleChannel (x := x) .A
    have keepsB := keepsA.settleChannel (x := x) .B
    have first := h.settleChannel (x := x) (h.not_bound hn) .A
    have both := first.settleChannel (x := x) (first.not_bound (keepsA.nodup hn)) .B
    unfold Engine.settleLoop
    dsimp only
    split
    · exact ih both (keepsB.nodup hn)
    · exact both

/-- The settling after ABORT_ALL, with the entry to CONFIG where nothing is left. -/
theorem State.settle_allGo {s : State} (j : ∀ n, s.engine.JudgedAt n) (hn : (s.engine.held.map Order.slot).Nodup) :
    s.engine.AllGo s.settle.engine := by
  have settled : s.engine.AllGo (s.engine.settle s.front) := by
    unfold Engine.settle
    split
    · exact .settleLoop 12 (.refl j) hn
    · exact .refl j
  unfold State.settle
  dsimp only
  split
  · exact settled.of_held (Engine.enterConfig_around _ _).held
  · exact settled

end

/-! ### ABORT_ALL at one order (R29) -/

/-- The record of a running order that ABORT_ALL has marked. -/
def Order.aborted (o : Order) : Order := { o with withdrawMark := some .aborted }

section
variable (x : Front) {e : Engine} {slot : Nat} {o : Order}

theorem Engine.abortOrder_of_finished (ho : e.order? slot = some o) (hf : o.finish ≠ none) :
    e.abortOrder x slot = e := by
  simp only [Engine.abortOrder, ho, Option.isSome_iff_ne_none.mpr hf, if_true]

theorem Engine.abortOrder_of_running (ho : e.order? slot = some o) (hf : o.finish = none) (hr : o.state = .running) :
    e.abortOrder x slot = (e.updOrder slot Order.aborted).stopOrder x slot := by
  simp only [Engine.abortOrder, ho, hf, hr, Option.isSome_none, Bool.false_eq_true, if_false, if_true]
  rfl

theorem Engine.abortOrder_of_waiting (ho : e.order? slot = some o) (hf : o.finish = none) (hw : o.state ≠ .running) :
    e.abortOrder x slot = e.finishWaiting x slot .aborted false := by
  simp only [Engine.abortOrder, ho, hf, hw, Option.isSome_none, Bool.false_eq_true, if_false]

theorem Engine.aborted_order? (ho : e.order? slot = some o) :
    (e.updOrder slot Order.aborted).order? slot = some o.aborted := by
  rw [Engine.order?_updOrder e slot Order.aborted fun _ => rfl, ho]
  rfl

theorem Engine.aborted_judgedAt (ho : e.order? slot = some o) (hr : o.state = .running) :
    (e.updOrder slot Order.aborted).JudgedAt slot := by
  intro o' ho'
  rw [Engine.aborted_order? ho] at ho'
  cases ho'
  exact .inr ⟨hr, .inr (.inl rfl)⟩

theorem Engine.abortOrder_acts (ho : e.order? slot = some o) : e.ActsOn slot (e.abortOrder x slot) := by
  by_cases hf : o.finish = none
  · by_cases hr : o.state = .running
    · rw [Engine.abortOrder_of_running x ho hf hr]
      exact (Engine.ActsOn.updOrder e (f := Order.aborted) fun _ => rfl).trans
        (Engine.stopOrder_carries x (Engine.aborted_judgedAt ho hr)).acts
    · rw [Engine.abortOrder_of_waiting x ho hf hr]
      exact Engine.finishWaiting_acts x e slot _ _
  · rw [Engine.abortOrder_of_finished x ho hf]
    exact .refl slot e

end

/-- The roster's part of ABORT_ALL. -/
def Engine.abortAll (x : Front) (e : Engine) : Engine :=
  (e.held.map Order.slot).foldl (fun e slot => e.abortOrder x slot) e

theorem Engine.abortAll_keeps (x : Front) (e : Engine) : e.Keeps (e.abortAll x) :=
  .foldl _ _ (fun _ slot h => h.abortOrder slot) (.refl e)

/-- What ABORT_ALL makes of an order: a waiting one is finished, a running one is marked, and a finished one stays. -/
theorem Engine.abortAll_order? (x : Front) {e : Engine} (hn : (e.held.map Order.slot).Nodup) {o : Order}
    (ho : o ∈ e.held) : ∃ o', (e.abortAll x).order? o.slot = some o' ∧
      (o.finish = none → o.state ≠ .running → o'.finish = some .aborted) ∧
      (o.finish = none → o.state = .running → o.aborted.Goes o') ∧ (o.finish ≠ none → o' = o) := by
  obtain ⟨e1, own, -, order, -⟩ := Engine.foldl_slots_at (C := fun _ => True)
    (g := fun e slot => e.abortOrder x slot) (fun e s o ho _ => Engine.abortOrder_acts x ho) hn (fun _ _ => trivial) ho
  by_cases hf : o.finish = none
  · by_cases hr : o.state = .running
    · rw [Engine.abortOrder_of_running x own hf hr] at order
      obtain ⟨o', ho', goes⟩ :=
        (Engine.stopOrder_carries x (Engine.aborted_judgedAt own hr)).goes.some (Engine.aborted_order? own)
      exact ⟨o', order.trans ho', fun _ h => absurd hr h, fun _ _ => goes, absurd hf⟩
    · rw [Engine.abortOrder_of_waiting x own hf hr, Engine.finishWaiting_order? x own hf] at order
      exact ⟨_, order, fun _ _ => rfl, fun _ h => absurd h hr, absurd hf⟩
  · rw [Engine.abortOrder_of_finished x own hf, own] at order
    exact ⟨o, order, fun h => absurd h hf, fun h => absurd h hf, fun _ => rfl⟩

/-- After ABORT_ALL every order is judged. -/
theorem Engine.abortAll_judged (x : Front) {e : Engine} (hn : (e.held.map Order.slot).Nodup) (s : Nat) :
    (e.abortAll x).JudgedAt s := by
  intro o' ho'
  obtain ⟨mem, rfl⟩ := Engine.order?_mem ho'
  have slots := (Engine.abortAll_keeps x e).held.map Prod.fst
  simp only [List.map_map, Function.comp_def, Order.key] at slots
  obtain ⟨o, ho, same⟩ := List.mem_map.mp (slots.mem_iff.mp (List.mem_map_of_mem mem))
  obtain ⟨o1, ho1, waiting, running, finished⟩ := Engine.abortAll_order? x hn ho
  have same : o.slot = o'.slot := same
  rw [same, ho'] at ho1
  cases ho1
  by_cases hf : o.finish = none
  · by_cases hr : o.state = .running
    · exact (running hf hr).judged (.inr ⟨hr, .inr (.inl rfl)⟩)
    · exact .inl (by simp [waiting hf hr])
  · exact .inl (finished hf ▸ hf)

theorem execAbortAll_eq {s : State} (hl : s.front.resetLine = false)
    (hc : s.front.ctl = .run ∨ s.front.ctl = .draining) :
    exec .abortAll s = .next (State.settle { s with
      front := { s.front with actionQ := [] }, engine := s.engine.abortAll { s.front with actionQ := [] } }) :=
  congrArg Host.Outcome.next (if_pos ⟨Front.hears_of_noLine hl, (Front.active_iff _).mpr hc⟩)

/-- Settles O18: what ABORT_ALL makes of each order, followed through the settling. -/
theorem abortAllEndsEveryOrder : Obligations.AbortAllEndsEveryOrder := by
  unfold Obligations.AbortAllEndsEveryOrder
  intro s once hl hc
  rw [execAbortAll_eq hl hc]
  generalize hx : { s.front with actionQ := [] } = x
  have front := State.settle_front { s with front := x, engine := s.engine.abortAll x }
  have kept : (State.settle { s with front := x, engine := s.engine.abortAll x }).front.actionQ = [] ∧
      (State.settle { s with front := x, engine := s.engine.abortAll x }).front.done = s.front.done ∧
      (State.settle { s with front := x, engine := s.engine.abortAll x }).front.intake = s.front.intake := by
    rcases front with h | ⟨-, h⟩ <;> rw [h, ← hx] <;> exact ⟨rfl, rfl, rfl⟩
  have hn := (Engine.abortAll_keeps x s.engine).nodup once.once
  have goes := State.settle_allGo (s := { s with front := x, engine := s.engine.abortAll x })
    (Engine.abortAll_judged x once.once) hn
  refine ⟨_, rfl, kept.1, kept.2.1, kept.2.2, State.settle_mem _, fun o ho hf => ?_⟩
  obtain ⟨o1, ho1, waiting, running, -⟩ := Engine.abortAll_order? x once.once ho
  obtain ⟨o', ho', go⟩ := (goes.goes o.slot).some ho1
  obtain ⟨mem, slot⟩ := Engine.order?_mem ho'
  refine ⟨o', mem, slot, fun hw => ?_, fun hr => ?_⟩
  · rcases go.finish with k | ⟨k, -⟩
    · exact k.trans (waiting hf hw)
    · rw [waiting hf hw] at k
      cases k
  · have all := (running hf hr).trans go
    refine ⟨all.mark, ?_⟩
    rcases all.finish with k | ⟨-, k⟩
    · exact .inl (k.trans hf)
    · exact .inr k

end Sys2Proof.Machine

namespace Sys2Proof.Machine

/-! ### Words of a record (R175) -/

theorem wordAt_drop (ws : List Word) (n k : Nat) : wordAt (ws.drop n) k = ws.getD (n + k) 0 := by
  simp only [wordAt, List.getD_eq_getElem?_getD, List.getElem?_drop]

/-! ### A drive record (R106, R124, R164) -/

theorem auxOf?_eq (n : Nat) :
    auxOf? n = [AuxFunction.none, .doorLock, .inUseLamp, .twoSidedSense, .changeSense][n]? := by
  match n with
  | 0 | 1 | 2 | 3 | 4 | _ + 5 => rfl

theorem edgeOf?_eq (n : Nat) : edgeOf? n = [EdgeMode.none, .toReady, .toNotReady, .both][n]? := by
  match n with
  | 0 | 1 | 2 | 3 | _ + 4 => rfl

theorem auxOf?_isSome (n : Nat) : (auxOf? n).isSome = true ↔ n ≤ 4 := by
  rw [auxOf?_eq]
  simp [Nat.lt_succ_iff]

theorem edgeOf?_isSome (n : Nat) : (edgeOf? n).isSome = true ↔ n ≤ 3 := by
  rw [edgeOf?_eq]
  simp [Nat.lt_succ_iff]

/-- Every field of the record is of its list (R164). -/
def DriveListed (ws : List Word) : Prop :=
  bitField (wordAt ws 0) 4 2 ≤ 1 ∧ 1 ≤ lowByte (wordAt ws 1) ∧ lowByte (wordAt ws 1) ≤ 2 ∧
  1 ≤ highByte (wordAt ws 1) ∧ highByte (wordAt ws 1) ≤ 80 ∧ 1 ≤ lowByte (wordAt ws 2) ∧
  lowByte (wordAt ws 2) ≤ 32 ∧ bitField (wordAt ws 0) 8 3 ≤ 3 ∧ bitField (wordAt ws 0) 12 2 ≤ 1 ∧
  bitField (wordAt ws 2) 8 3 ≤ 4 ∧ bitField (wordAt ws 2) 12 3 ≤ 3

/-- The track of the record fits a revolution (R124). -/
def DriveFits (ws : List Word) : Prop :=
  trackFits (bitField (wordAt ws 0) 4 2 == 1) (lowByte (wordAt ws 2)) (sizeBytes (bitField (wordAt ws 0) 8 3)) = true

/-- The record that START takes. -/
def driveTaken (ws : List Word) (aux : AuxFunction) (edge : EdgeMode) : DriveRecord :=
  { present := true, debounce := bitAt (wordAt ws 0) 1, mfm := bitField (wordAt ws 0) 4 2 == 1,
    sizeCode := bitField (wordAt ws 0) 8 3, firstSector := bitField (wordAt ws 0) 12 2,
    surfaces := lowByte (wordAt ws 1), cylinders := highByte (wordAt ws 1), sectors := lowByte (wordAt ws 2),
    aux := aux, edge := edge, step := clampStep (lowByte (wordAt ws 3)),
    settle := clampSettle (highByte (wordAt ws 3)), load := clampLoad (lowByte (wordAt ws 4)),
    unload := highByte (wordAt ws 4) }

theorem trackFits_iff (mfm : Bool) (sectors size : Nat) : trackFits mfm sectors size = true ↔
    if mfm then 160 + sectors * (size + 92) ≤ 10400 else 80 + sectors * (size + 46) ≤ 5200 := by
  cases mfm <;> exact decide_eq_true_iff

section
variable {ws : List Word}

theorem driveRecordOf_absent (h : bitAt (wordAt ws 0) 0 = false) : driveRecordOf ws = .ok DriveRecord.absent :=
  if_neg (Bool.eq_false_iff.mp h)

theorem driveRecordOf_notListed (h : bitAt (wordAt ws 0) 0 = true) (hl : ¬DriveListed ws) :
    driveRecordOf ws = .error .driveGeometry := by
  refine (if_pos h).trans ?_
  split
  · rename_i hc
    split
    · rename_i aux edge ha he
      refine absurd ?_ hl
      obtain ⟨density, surfaces, surfaces', cylinders, cylinders', sectors, sectors', size, first⟩ := hc
      exact ⟨density, surfaces, surfaces', cylinders, cylinders', sectors, sectors', size, first,
        (auxOf?_isSome _).mp (by rw [ha]; rfl), (edgeOf?_isSome _).mp (by rw [he]; rfl)⟩
    · rfl
  · rfl

/-- A record with its fields of their lists is taken where its track fits. -/
theorem driveRecordOf_listed (h : bitAt (wordAt ws 0) 0 = true) (hl : DriveListed ws) :
    ∃ aux edge, auxOf? (bitField (wordAt ws 2) 8 3) = some aux ∧ edgeOf? (bitField (wordAt ws 2) 12 3) = some edge ∧
      (DriveFits ws → driveRecordOf ws = .ok (driveTaken ws aux edge)) ∧
      (¬DriveFits ws → driveRecordOf ws = .error .trackOverfull) := by
  obtain ⟨density, surfaces, surfaces', cylinders, cylinders', sectors, sectors', size, first, haux, hedge⟩ := hl
  obtain ⟨aux, ha⟩ := Option.isSome_iff_exists.mp ((auxOf?_isSome _).mpr haux)
  obtain ⟨edge, he⟩ := Option.isSome_iff_exists.mp ((edgeOf?_isSome _).mpr hedge)
  have taken : driveRecordOf ws = if trackFits (bitField (wordAt ws 0) 4 2 == 1) (lowByte (wordAt ws 2))
      (sizeBytes (bitField (wordAt ws 0) 8 3)) then .ok (driveTaken ws aux edge) else .error .trackOverfull := by
    refine ((if_pos h).trans (if_pos
      ⟨density, surfaces, surfaces', cylinders, cylinders', sectors, sectors', size, first⟩)).trans ?_
    rw [ha, he]
    rfl
  exact ⟨aux, edge, ha, he, fun hf => taken.trans (if_pos hf), fun hf => taken.trans (if_neg hf)⟩

end

/-! ### The four drive records (R163) -/

section
variable {ws : List Word} {d : Drive}

theorem driveRecordAt_ok {r : DriveRecord} (h : driveRecordOf (ws.drop (8 * d.number)) = .ok r) :
    driveRecordAt ws d = .ok r := by simp only [driveRecordAt, h]

theorem driveRecordAt_error {code : ConfigErrorCode} (h : driveRecordOf (ws.drop (8 * d.number)) = .error code) :
    driveRecordAt ws d = .error (code, d.number) := by simp only [driveRecordAt, h]

theorem driveRecordsOf_error {code : ConfigErrorCode} (h : driveRecordOf (ws.drop (8 * d.number)) = .error code)
    (before : ∀ d' : Drive, d'.number < d.number → ∃ r, driveRecordOf (ws.drop (8 * d'.number)) = .ok r) :
    driveRecordsOf ws = .error (code, d.number) := by
  have fails := driveRecordAt_error h
  have passes (d' : Drive) (hd : d'.number < d.number) : ∃ r, driveRecordAt ws d' = .ok r :=
    (before d' hd).imp fun _ => driveRecordAt_ok
  unfold driveRecordsOf
  obtain ⟨c, p⟩ := d
  cases c <;> cases p
  case A.p0 => rw [fails]; rfl
  case A.p1 =>
    obtain ⟨r0, h0⟩ := passes ⟨.A, .p0⟩ (by decide)
    rw [h0, fails]; rfl
  case B.p0 =>
    obtain ⟨r0, h0⟩ := passes ⟨.A, .p0⟩ (by decide)
    obtain ⟨r1, h1⟩ := passes ⟨.A, .p1⟩ (by decide)
    rw [h0, h1, fails]; rfl
  case B.p1 =>
    obtain ⟨r0, h0⟩ := passes ⟨.A, .p0⟩ (by decide)
    obtain ⟨r1, h1⟩ := passes ⟨.A, .p1⟩ (by decide)
    obtain ⟨r2, h2⟩ := passes ⟨.B, .p0⟩ (by decide)
    rw [h0, h1, h2, fails]; rfl

theorem driveRecordsOf_ok {drives : ByDrive DriveRecord}
    (h : ∀ d : Drive, driveRecordOf (ws.drop (8 * d.number)) = .ok (drives.drive d)) :
    driveRecordsOf ws = .ok drives := by
  have passes (d : Drive) := driveRecordAt_ok (h d)
  unfold driveRecordsOf
  rw [passes ⟨.A, .p0⟩, passes ⟨.A, .p1⟩, passes ⟨.B, .p0⟩, passes ⟨.B, .p1⟩]
  rfl

end

/-! ### The pair records (R57) -/

/-- The word of a pair's mode, kept side and lost count. -/
def pairWord (config : List Word) (p : PairId) : Word := config.getD (5 + 2 * p.number) 0

/-- The pair is bound in the configuration block. -/
def pairBound (config : List Word) (p : PairId) : Bool := bitAt (config.getD (4 + 2 * p.number) 0) 0

/-- Mode, kept side or lost count is out of range. -/
def PairOutOfRange (config : List Word) (p : PairId) : Prop :=
  1 < bitField (pairWord config p) 0 2 ∨
  (bitField (pairWord config p) 0 2 = 1 ∧ 1 < bitField (pairWord config p) 4 2) ∨ 32 < bitField (pairWord config p) 8 8

/-- One of the two records is not present, or they differ in geometry. -/
def DriveRecord.Differ (ra rb : DriveRecord) : Prop :=
  ra.present = false ∨ rb.present = false ∨ ra.mfm ≠ rb.mfm ∨ ra.surfaces ≠ rb.surfaces ∨
  ra.cylinders ≠ rb.cylinders ∨ ra.sectors ≠ rb.sectors ∨ ra.sizeCode ≠ rb.sizeCode ∨ ra.firstSector ≠ rb.firstSector

/-- The record of a bound pair that START takes. -/
def pairTaken (config : List Word) (p : PairId) : PairRecord :=
  { bound := true, mode := if bitField (pairWord config p) 0 2 = 1 then .detached else .attached,
    kept := if bitField (pairWord config p) 4 2 = 1 then .B else .A, lost := bitField (pairWord config p) 8 8 }

theorem not_pairOutOfRange_iff (config : List Word) (p : PairId) : ¬PairOutOfRange config p ↔
    bitField (pairWord config p) 0 2 ≤ 1 ∧
    (bitField (pairWord config p) 0 2 = 1 → bitField (pairWord config p) 4 2 ≤ 1) ∧
    bitField (pairWord config p) 8 8 ≤ 32 := by
  simp only [PairOutOfRange, not_or, not_and, not_lt]

theorem DriveRecord.not_differ_iff (ra rb : DriveRecord) :
    ¬ra.Differ rb ↔ (ra.present && rb.present && sameGeometry ra rb) = true := by
  simp [DriveRecord.Differ, sameGeometry, and_assoc]

section
variable {config : List Word} {drives : ByDrive DriveRecord} {old : PairRecord} {p : PairId}

theorem pairRecordAt_unbound (h : pairBound config p = false) :
    pairRecordAt config drives old p = .ok { old with bound := false } := if_neg (Bool.eq_false_iff.mp h)

theorem pairRecordAt_outOfRange (h : pairBound config p = true) (hr : PairOutOfRange config p) :
    pairRecordAt config drives old p = .error (.pairRecord, p.number) :=
  (if_pos h).trans (if_neg fun k => (not_pairOutOfRange_iff config p).mpr k hr)

theorem pairRecordAt_mismatch (h : pairBound config p = true) (hr : ¬PairOutOfRange config p)
    (hd : (drives.drive ⟨.A, p⟩).Differ (drives.drive ⟨.B, p⟩)) :
    pairRecordAt config drives old p = .error (.pairMismatch, p.number) :=
  ((if_pos h).trans (if_pos ((not_pairOutOfRange_iff config p).mp hr))).trans
    (if_neg fun k => (DriveRecord.not_differ_iff _ _).mpr k hd)

theorem pairRecordAt_taken (h : pairBound config p = true) (hr : ¬PairOutOfRange config p)
    (hd : ¬(drives.drive ⟨.A, p⟩).Differ (drives.drive ⟨.B, p⟩)) :
    pairRecordAt config drives old p = .ok (pairTaken config p) :=
  ((if_pos h).trans (if_pos ((not_pairOutOfRange_iff config p).mp hr))).trans
    (if_pos ((DriveRecord.not_differ_iff _ _).mp hd))

/-- The pair's record passes its checks. -/
def PairPasses (config : List Word) (drives : ByDrive DriveRecord) (p : PairId) : Prop :=
  pairBound config p = true →
    ¬PairOutOfRange config p ∧ ¬(drives.drive ⟨.A, p⟩).Differ (drives.drive ⟨.B, p⟩)

/-- The pair's record fails its checks with a code. -/
def PairFails (config : List Word) (drives : ByDrive DriveRecord) (p : PairId) (code : ConfigErrorCode) : Prop :=
  pairBound config p = true ∧ ((PairOutOfRange config p ∧ code = .pairRecord) ∨
    (¬PairOutOfRange config p ∧ (drives.drive ⟨.A, p⟩).Differ (drives.drive ⟨.B, p⟩) ∧ code = .pairMismatch))

theorem pairRecordAt_error {code : ConfigErrorCode} (h : PairFails config drives p code) :
    pairRecordAt config drives old p = .error (code, p.number) := by
  obtain ⟨hb, ⟨hr, rfl⟩ | ⟨hr, hd, rfl⟩⟩ := h
  · exact pairRecordAt_outOfRange hb hr
  · exact pairRecordAt_mismatch hb hr hd

theorem pairRecordAt_ok (h : PairPasses config drives p) : ∃ r, pairRecordAt config drives old p = .ok r ∧
    r.bound = pairBound config p ∧ (pairBound config p = true → r = pairTaken config p) := by
  cases hb : pairBound config p with
  | false => exact ⟨_, pairRecordAt_unbound hb, rfl, fun k => by cases k⟩
  | true => exact ⟨_, pairRecordAt_taken hb (h hb).1 (h hb).2, rfl, fun _ => rfl⟩

end

/-! ### The checks of the tables (R163) -/

section
variable {old : ByPair PairRecord} {a : AreaData} {drives : ByDrive DriveRecord}

theorem checkTables_of_error {f : ConfigErrorCode × Nat} (h : driveRecordsOf a.drives = .error f) :
    checkTables old a = .error f := by
  unfold checkTables
  rw [h]
  rfl

theorem checkTables_eq (h : driveRecordsOf a.drives = .ok drives) :
    checkTables old a = (pairRecordsOf a.config drives old).map fun pairs => (drives, pairs) := by
  have read : checkTables old a = (pairRecordsOf a.config drives old).bind fun pairs => .ok (drives, pairs) := by
    unfold checkTables
    rw [h]
    rfl
  rw [read]
  cases pairRecordsOf a.config drives old <;> rfl

theorem checkTables_pair0 (h : driveRecordsOf a.drives = .ok drives) {code : ConfigErrorCode}
    (hf : PairFails a.config drives .p0 code) : checkTables old a = .error (code, 0) := by
  rw [checkTables_eq h, pairRecordsOf, pairRecordAt_error hf]
  rfl

theorem checkTables_pair1 (h : driveRecordsOf a.drives = .ok drives) {code : ConfigErrorCode}
    (hp : PairPasses a.config drives .p0) (hf : PairFails a.config drives .p1 code) :
    checkTables old a = .error (code, 1) := by
  obtain ⟨r, hr, -⟩ := pairRecordAt_ok (old := old.p0) hp
  rw [checkTables_eq h, pairRecordsOf, hr, pairRecordAt_error hf]
  rfl

theorem checkTables_ok (h : driveRecordsOf a.drives = .ok drives) (h0 : PairPasses a.config drives .p0)
    (h1 : PairPasses a.config drives .p1) : ∃ pairs, checkTables old a = .ok (drives, pairs) ∧
      ∀ p, (pairs.get p).bound = pairBound a.config p ∧
        (pairBound a.config p = true → pairs.get p = pairTaken a.config p) := by
  obtain ⟨r0, hr0, taken0⟩ := pairRecordAt_ok (old := old.p0) h0
  obtain ⟨r1, hr1, taken1⟩ := pairRecordAt_ok (old := old.p1) h1
  refine ⟨⟨r0, r1⟩, ?_, fun p => ?_⟩
  · rw [checkTables_eq h, pairRecordsOf, hr0, hr1]
    rfl
  · cases p with
    | p0 => exact taken0
    | p1 => exact taken1

end

/-! ### The split log image (R62) -/

theorem PairId.ofNumber?_eq_some (n : Nat) (p : PairId) : PairId.ofNumber? n = some p ↔ n = p.number := by
  constructor
  · intro h
    unfold PairId.ofNumber? at h
    split at h <;> cases h <;> rfl
  · rintro rfl
    cases p <;> rfl

theorem sideOf?_eq_some (n : Nat) (c : Side) : sideOf? n = some c ↔ n = if c = .A then 0 else 1 := by
  constructor
  · intro h
    unfold sideOf? at h
    split at h <;> cases h <;> rfl
  · rintro rfl
    cases c <;> rfl

theorem originKindOf?_eq_some (n : Nat) (k : Kind) : originKindOf? n = some k ↔
    n = k.code ∧ (k = .write ∨ k = .check ∨ k = .format ∨ k = .retire) := by
  constructor
  · intro h
    unfold originKindOf? at h
    split at h
    case h_1 hk => cases h; exact ⟨((kindOf?_eq_some n _).mp hk).symm, .inl rfl⟩
    case h_2 hk => cases h; exact ⟨((kindOf?_eq_some n _).mp hk).symm, .inr (.inl rfl)⟩
    case h_3 hk => cases h; exact ⟨((kindOf?_eq_some n _).mp hk).symm, .inr (.inr (.inl rfl))⟩
    case h_4 hk => cases h; exact ⟨((kindOf?_eq_some n _).mp hk).symm, .inr (.inr (.inr rfl))⟩
    case h_5 => cases h
  · rintro ⟨rfl, rfl | rfl | rfl | rfl⟩ <;> rfl

section
variable (pairs : ByPair PairRecord) (drives : ByDrive DriveRecord) (ws : List Word)

/-- The image words at a position read as this entry, which has none of the faults of R62 but that its sector may be
listed before. -/
def ImageReads (i : Nat) (l : LogEntry) : Prop :=
  lowByte (ws.getD (4 * i + 0) 0) = l.pair.number ∧ highByte (ws.getD (4 * i + 0) 0) = (if l.good = .A then 0 else 1) ∧
  lowByte (ws.getD (4 * i + 1) 0) = l.place.cylinder ∧ highByte (ws.getD (4 * i + 1) 0) = l.place.surface ∧
  lowByte (ws.getD (4 * i + 2) 0) = l.place.sector ∧ highByte (ws.getD (4 * i + 2) 0) = l.origin ∧
  lowByte (ws.getD (4 * i + 3) 0) = l.originKind.code ∧
  (l.originKind = .write ∨ l.originKind = .check ∨ l.originKind = .format ∨ l.originKind = .retire) ∧
  (pairs.get l.pair).bound = true ∧ (pairs.get l.pair).mode = .attached ∧
  l.place.cylinder < (drives.drive ⟨.A, l.pair⟩).cylinders ∧ l.place.surface < (drives.drive ⟨.A, l.pair⟩).surfaces ∧
  (drives.drive ⟨.A, l.pair⟩).firstSector ≤ l.place.sector ∧
  l.place.sector < (drives.drive ⟨.A, l.pair⟩).firstSector + (drives.drive ⟨.A, l.pair⟩).sectors ∧ l.origin ≤ 31

/-- The image reads as these entries, no two of the same sector. -/
def ImageTakes (n : Nat) (log : List LogEntry) : Prop :=
  log.length = n ∧ (∀ (i : Nat) (l : LogEntry), log[i]? = some l → ImageReads pairs drives ws i l) ∧
  ∀ (i j : Nat) (l m : LogEntry), i < j → log[i]? = some l → log[j]? = some m → l.pair = m.pair → l.place ≠ m.place

theorem LogEntry.sameSector_eq_false (l m : LogEntry) :
    l.sameSector m = false ↔ (m.pair = l.pair → m.place ≠ l.place) := by
  simp only [LogEntry.sameSector, Bool.and_eq_false_imp, beq_iff_eq, beq_eq_false_iff_ne]
  exact ⟨fun h hp hl => h hp.symm hl.symm, fun h hp hl => h hp.symm hl.symm⟩

/-- An image entry is taken where it reads as an entry whose sector is not listed before. -/
theorem imageEntry_eq_some (before : List LogEntry) (i : Nat) (l : LogEntry) :
    imageEntry pairs drives before (ws.drop (4 * i)) = some l ↔
      ImageReads pairs drives ws i l ∧ ∀ m ∈ before, m.pair = l.pair → m.place ≠ l.place := by
  unfold imageEntry
  simp only [wordAt_drop]
  constructor
  · intro h
    split at h
    · rename_i p good kind hp hg hk
      split at h
      · rename_i hc
        cases h
        simp only [Bool.and_eq_true, decide_eq_true_eq, Bool.not_eq_true', List.any_eq_false, Bool.not_eq_true,
          beq_iff_eq, LogEntry.sameSector_eq_false] at hc
        obtain ⟨⟨⟨⟨⟨⟨⟨bound, attached⟩, cylinder⟩, surface⟩, first⟩, last⟩, origin⟩, fresh⟩ := hc
        obtain ⟨code, listed⟩ := (originKindOf?_eq_some _ _).mp hk
        exact ⟨⟨(PairId.ofNumber?_eq_some _ _).mp hp, (sideOf?_eq_some _ _).mp hg, rfl, rfl, rfl, rfl, code, listed,
          bound, attached, cylinder, surface, first, last, Nat.lt_succ_iff.mp origin⟩, fresh⟩
      · cases h
    · cases h
  · rintro ⟨⟨hp, hg, cylinder, surface, sector, origin, code, listed, bound, attached, hc, hs, first, last, ho⟩, fresh⟩
    rw [(PairId.ofNumber?_eq_some _ _).mpr hp, (sideOf?_eq_some _ _).mpr hg,
      (originKindOf?_eq_some _ _).mpr ⟨code, listed⟩, cylinder, surface, sector, origin]
    refine if_pos ?_
    simp only [Bool.and_eq_true, decide_eq_true_eq, Bool.not_eq_true', List.any_eq_false, Bool.not_eq_true,
      beq_iff_eq, LogEntry.sameSector_eq_false]
    exact ⟨⟨⟨⟨⟨⟨⟨bound, attached⟩, hc⟩, hs⟩, first⟩, last⟩, Nat.lt_succ_iff.mpr ho⟩, fresh⟩

variable {pairs drives ws}

/-- One entry more is taken where it reads so and its sector is not among those before. -/
theorem imageTakes_append (n : Nat) (log : List LogEntry) (l : LogEntry) :
    ImageTakes pairs drives ws (n + 1) (log ++ [l]) ↔ ImageTakes pairs drives ws n log ∧
      ImageReads pairs drives ws n l ∧ ∀ m ∈ log, m.pair = l.pair → m.place ≠ l.place := by
  have before {i : Nat} {m : LogEntry} (h : log[i]? = some m) : i < log.length ∧ (log ++ [l])[i]? = some m := by
    have hi := (List.getElem?_eq_some_iff.mp h).1
    exact ⟨hi, by rw [List.getElem?_append_left hi, h]⟩
  have last : (log ++ [l])[log.length]? = some l := by simp
  constructor
  · rintro ⟨length, reads, distinct⟩
    have length : log.length = n := by simpa using length
    refine ⟨⟨length, fun i m h => reads i m (before h).2, fun i j m k hij hi hj =>
      distinct i j m k hij (before hi).2 (before hj).2⟩, length ▸ reads _ l last, fun m hm => ?_⟩
    obtain ⟨i, hi⟩ := List.mem_iff_getElem?.mp hm
    exact distinct i _ m l (before hi).1 (before hi).2 last
  · rintro ⟨⟨rfl, reads, distinct⟩, readsLast, fresh⟩
    have inLog {i : Nat} {m : LogEntry} (h : (log ++ [l])[i]? = some m) :
        log[i]? = some m ∨ (i = log.length ∧ m = l) := by
      rcases lt_or_ge i log.length with hi | hi
      · rw [List.getElem?_append_left hi] at h
        exact .inl h
      · have hl := (List.getElem?_eq_some_iff.mp h).1
        have hi : i = log.length := by simp at hl; omega
        subst hi
        exact .inr ⟨rfl, Option.some.inj (h.symm.trans last)⟩
    refine ⟨by simp, fun i m h => ?_, fun i j m k hij hi hj => ?_⟩
    · rcases inLog h with h | ⟨rfl, rfl⟩
      · exact reads i m h
      · exact readsLast
    · rcases inLog hj with hj | ⟨rfl, rfl⟩
      · rcases inLog hi with hi | ⟨rfl, -⟩
        · exact distinct i j m k hij hi hj
        · exact absurd (before hj).1 (by omega)
      · rcases inLog hi with hi | ⟨rfl, -⟩
        · exact fresh m (List.mem_of_getElem? hi)
        · exact absurd hij (lt_irrefl _)

/-- The entries taken so far are those before the position reached. -/
theorem imageEntries_taken (log : List LogEntry) : ∀ n i, ImageTakes pairs drives ws i log →
    imageEntries pairs drives (i + n) 0 ws [] = imageEntries pairs drives n i (ws.drop (4 * i)) log := by
  induction log using List.reverseRecOn with
  | nil =>
    rintro n i ⟨rfl, -⟩
    simp
  | append_singleton log l ih =>
    intro n i h
    obtain ⟨j, rfl⟩ : ∃ j, i = j + 1 := ⟨log.length, by simpa using h.1.symm⟩
    obtain ⟨taken, reads, fresh⟩ := (imageTakes_append j log l).mp h
    have entry := (imageEntry_eq_some pairs drives ws log j l).mpr ⟨reads, fresh⟩
    have step := ih (n + 1) j taken
    rw [imageEntries, entry, List.drop_drop] at step
    rw [show j + 1 + n = j + (n + 1) by omega, step]
    rfl

theorem imageOf_tooLong {length : Nat} (h : 32 < length) :
    imageOf pairs drives length ws = .error (.splitImage, 32) := if_neg (not_le.mpr h)

theorem imageOf_taken {length : Nat} (h : length ≤ 32) {log : List LogEntry}
    (taken : ImageTakes pairs drives ws length log) : imageOf pairs drives length ws = .ok log :=
  (if_pos h).trans (imageEntries_taken log 0 length taken)

/-- The first position whose entry is not taken is named. -/
theorem imageOf_refused {length i : Nat} (h : length ≤ 32) {log : List LogEntry} (hi : i < length)
    (taken : ImageTakes pairs drives ws i log) (refused : ∀ log', ¬ImageTakes pairs drives ws (i + 1) log') :
    imageOf pairs drives length ws = .error (.splitImage, i) := by
  obtain ⟨n, rfl⟩ : ∃ n, length = i + (n + 1) := ⟨length - i - 1, by omega⟩
  have entry : imageEntry pairs drives log (ws.drop (4 * i)) = none := by
    refine Option.eq_none_iff_forall_ne_some.mpr fun l hl => ?_
    obtain ⟨reads, fresh⟩ := (imageEntry_eq_some pairs drives ws log i l).mp hl
    exact refused (log ++ [l]) ((imageTakes_append i log l).mpr ⟨taken, reads, fresh⟩)
  refine (if_pos h).trans ((imageEntries_taken log (n + 1) i taken).trans ?_)
  rw [imageEntries, entry]

end

/-! ### What START takes (R163, R164) -/

section
variable {old : ByPair PairRecord} {a : AreaData} {image : List Word} {drives : ByDrive DriveRecord}
  {pairs : ByPair PairRecord}

/-- What START commits when its checks have passed (R165). -/
def commitOf (a : AreaData) (drives : ByDrive DriveRecord) (pairs : ByPair PairRecord) (log : List LogEntry) : Commit :=
  { tables := { desks := desksOf a.desks, drives := drives, overdue := clampOverdue (wordAt a.config 0).toNat,
                retry := clampRetry (wordAt a.config 2).toNat },
    window := clampWindow (wordAt a.config 1).toNat, enable := (wordAt a.config 3).setWidth 8,
    pairs := pairs, log := log }

theorem checkArea_eq (h : checkTables old a = .ok (drives, pairs)) :
    checkArea old a image = (imageOf pairs drives (imageLength a) image).bind fun log =>
      .ok (commitOf a drives pairs log) := by
  unfold checkArea
  rw [h]
  rfl

end

theorem desksOf_eq (ws : List Word) : desksOf ws = (List.range 8).map fun d =>
    { enabled := bitAt (ws.getD (4 * d) 0) 0, cls := bitField (ws.getD (4 * d + 1) 0) 0 2,
      limit := min 32 (max 1 (ws.getD (4 * d + 2) 0).toNat) } := by
  unfold desksOf deskOf
  simp only [wordAt_drop]
  rfl

theorem driveFits_iff (ws : List Word) : DriveFits ws ↔
    if bitField (wordAt ws 0) 4 2 = 1 then
      160 + lowByte (wordAt ws 2) * (128 * 2 ^ bitField (wordAt ws 0) 8 3 + 92) ≤ 10400
    else 80 + lowByte (wordAt ws 2) * (128 * 2 ^ bitField (wordAt ws 0) 8 3 + 46) ≤ 5200 := by
  unfold DriveFits
  rw [trackFits_iff]
  simp only [beq_iff_eq]
  rfl

/-- Settles O16: each check has its lemma; the image by following the entries taken. -/
theorem startChecksWhatItReads : Obligations.StartChecksWhatItReads := by
  unfold Obligations.StartChecksWhatItReads
  refine ⟨fun ws => ⟨fun h => ⟨_, driveRecordOf_absent h, rfl⟩, fun h => ⟨driveRecordOf_notListed h, fun hl hf => ?_,
    fun hl hf => ?_⟩⟩, fun old a => ⟨fun d code h before => ?_, fun drives h => ?_⟩, fun pairs drives ws length => ?_,
    fun old a image drives pairs log ht => ?_⟩
  · obtain ⟨aux, edge, -, -, -, overfull⟩ := driveRecordOf_listed h hl
    exact overfull fun k => hf ((driveFits_iff ws).mp k)
  · obtain ⟨aux, edge, haux, hedge, taken, -⟩ := driveRecordOf_listed h hl
    exact ⟨aux, edge, (auxOf?_eq _).symm.trans haux, (edgeOf?_eq _).symm.trans hedge, taken ((driveFits_iff ws).mpr hf)⟩
  · exact checkTables_of_error (driveRecordsOf_error h before)
  · have read := driveRecordsOf_ok h
    exact ⟨fun code hf => checkTables_pair0 read hf, fun code hp hf => checkTables_pair1 read hp hf,
      fun h0 h1 => checkTables_ok read h0 h1⟩
  · exact ⟨fun h => imageOf_tooLong h, fun h => ⟨fun log taken => imageOf_taken h taken,
      fun i log hi taken refused => imageOf_refused h hi taken refused⟩⟩
  · rw [checkArea_eq ht]
    refine ⟨fun code item hi => ?_, fun hi => ?_⟩
    · exact congrArg (Except.bind · _) hi
    · refine (congrArg (Except.bind · _) hi).trans (congrArg Except.ok ?_)
      rw [commitOf, desksOf_eq]
      rfl

end Sys2Proof.Machine

namespace Sys2Proof.Machine

/-! ### The bounds of the front's values (R46, R92, R94, R139, R168) -/

/-- Most commands leave the clock and the tables of the front as they were, and bring no action and no START under
way in RUN or DRAINING that was not there. -/
structure State.Within (s t : State) : Prop where
  actions : t.front.actionQ.length ≤ s.front.actionQ.length
  clock : t.front.clock = s.front.clock
  tables : t.front.tables = s.front.tables
  started : t.front.active = true → s.front.active = true ∧ t.front.starting = s.front.starting

theorem State.Within.refl (s : State) : s.Within s := ⟨le_rfl, rfl, rfl, fun h => ⟨h, rfl⟩⟩

theorem State.Within.trans {a b c : State} (h : a.Within b) (k : b.Within c) : a.Within c where
  actions := k.actions.trans h.actions
  clock := k.clock.trans h.clock
  tables := k.tables.trans h.tables
  started ha :=
    have ⟨hb, hs⟩ := k.started ha
    have ⟨hc, hs'⟩ := h.started hb
    ⟨hc, hs.trans hs'⟩

/-- Nothing of the front changes but what has no bounds. -/
theorem State.Within.of_eq {s t : State} (actions : t.front.actionQ = s.front.actionQ)
    (clock : t.front.clock = s.front.clock) (tables : t.front.tables = s.front.tables)
    (ctl : t.front.ctl = s.front.ctl) (starting : t.front.starting = s.front.starting) : s.Within t :=
  ⟨actions ▸ le_rfl, clock, tables, fun h => ⟨by simpa only [Front.active, ctl] using h, starting⟩⟩

theorem State.Within.of_front {s t : State} (h : t.front = s.front) : s.Within t := by
  apply State.Within.of_eq <;> rw [h]

theorem State.PortOnly.within {s t : State} (h : s.PortOnly t) : s.Within t := .of_front h.front

/-- Another state than RUN and DRAINING is entered. -/
theorem State.Within.of_inactive {s t : State} (h : t.front.active = false)
    (actions : t.front.actionQ.length ≤ s.front.actionQ.length) (clock : t.front.clock = s.front.clock)
    (tables : t.front.tables = s.front.tables) : s.Within t :=
  ⟨actions, clock, tables, fun ha => absurd ha (by simp [h])⟩

theorem State.Within.bounded {s t : State} (h : s.Within t) (k : s.front.Bounded) : t.front.Bounded where
  actions := h.actions.trans k.actions
  remaining := h.clock ▸ k.remaining
  window := h.clock ▸ k.window
  idle := h.clock ▸ k.idle
  overdue := h.tables ▸ k.overdue
  retry := h.tables ▸ k.retry
  started ha := have ⟨hs, eq⟩ := h.started ha; eq.trans (k.started hs)

theorem State.settle_within (s : State) : s.Within s.settle := by
  rcases s.settle_front with h | ⟨-, h⟩
  · exact .of_front h
  · exact .of_inactive (by rw [h]; rfl) (by simp [h, Front.enterConfig]) (by simp [h]) (by simp [h])

theorem State.Within.settle {s t : State} (h : s.Within t) : s.Within t.settle := h.trans t.settle_within

theorem State.engineEvent_within (s : State) (f : Front → Engine → Engine) : s.Within (s.engineEvent f) := by
  unfold State.engineEvent
  split
  · refine State.Within.settle ?_
    exact .of_front rfl
  · exact .refl _

theorem State.Within.event {s t : State} (h : s.Within t) (f : Front → Engine → Engine) :
    s.Within (t.engineEvent f) := h.trans (t.engineEvent_within f)

theorem State.await_within {s s' : State} {p : Notice → Bool} {n : Notice} (a : s.await p = some (n, s')) :
    s.Within s' := (State.await_only a).within

/-! ### Actions and START -/

theorem State.answer_within (s : State) (w : Word) (o : ActionOutcome) : s.Within (s.answer w o) :=
  .of_eq rfl rfl rfl rfl rfl

theorem State.takeAction_within {s s' : State} {row : Word → Bool} {w : Word} (h : s.takeAction row = some (w, s')) :
    s.Within s' := by
  obtain ⟨-, -, rest, s1, -, h1, rfl⟩ := State.takeAction_some h
  exact (State.intakeReady_only h1).within.trans ⟨by simp [Front.popAction], rfl, rfl, fun ha => ⟨ha, rfl⟩⟩

theorem State.act_within (s : State) (row : Word → Bool) (f : State → Word → State)
    (hf : ∀ (s : State) (w : Word), s.Within (f s w)) : s.Within (s.act row f) := by
  unfold State.act
  split
  · exact .refl s
  · rename_i w s' h
    have taken := State.takeAction_within h
    split
    · exact (taken.trans (hf s' w)).settle
    · exact taken.trans (State.answer_within _ _ _)

theorem State.failStart_within (s : State) (code : ConfigErrorCode) (item : Nat) : s.Within (s.failStart code item) :=
  .of_inactive rfl le_rfl rfl rfl

theorem State.tryStart_within (s : State) : s.Within s.tryStart := by
  unfold State.tryStart State.beginStart
  split
  · rename_i h
    split
    · exact s.failStart_within _ _
    · exact .of_inactive (by simp [Front.active, h.1]) le_rfl rfl rfl
  · exact .refl s

theorem State.Within.tryStart {s t : State} (h : s.Within t) : s.Within t.tryStart := h.trans t.tryStart_within

theorem execStart_within {s t : State} (h : execStart s = .next t) : s.Within t := by
  cases h
  dsimp only
  split
  · refine State.Within.tryStart ?_
    exact .of_inactive rfl le_rfl rfl rfl
  · exact .refl s

theorem execStop_within {s t : State} (h : execStop s = .next t) : s.Within t := by
  cases h
  dsimp only
  split
  · rename_i h
    refine State.Within.settle ?_
    exact ⟨le_rfl, rfl, rfl, fun _ => ⟨by simp [Front.active, h.2], rfl⟩⟩
  · exact .refl s

theorem execAbortAll_within {s t : State} (h : execAbortAll s = .next t) : s.Within t := by
  cases h
  dsimp only
  split
  · refine State.Within.settle ?_
    exact ⟨Nat.zero_le _, rfl, rfl, fun ha => ⟨ha, rfl⟩⟩
  · exact .refl s

theorem State.decidePost_within (s : State) (w : Word) (words : List Word) : s.Within (s.decidePost w words) := by
  unfold State.decidePost
  dsimp only
  split
  · exact s.answer_within _ _
  · split
    · exact .of_eq rfl rfl rfl rfl rfl
    · split <;> exact .of_eq rfl rfl rfl rfl rfl

theorem execSlotReadComplete_within {words : List Word} {s t : State} (h : execSlotReadComplete words s = .next t) :
    s.Within t := by
  cases h
  split
  · split
    · exact .refl s
    · rename_i a
      have read := State.await_within a
      split
      · exact (read.trans (State.decidePost_within _ _ _)).settle
      · exact read.trans (State.answer_within _ _ _)
  all_goals exact .refl s

theorem execPost_within {s t : State} (h : execPost s = .next t) : s.Within t := by
  cases h
  refine s.act_within _ _ fun s w => ?_
  split
  · exact s.answer_within _ _
  · exact .of_eq rfl rfl rfl rfl rfl

theorem execWithdraw_within {s t : State} (h : execWithdraw s = .next t) : s.Within t := by
  cases h
  refine s.act_within _ _ fun s w => ?_
  dsimp only [State.answerWithdraw]
  split <;> exact .of_eq rfl rfl rfl rfl rfl

theorem execBadAction_within {s t : State} (h : execBadAction s = .next t) : s.Within t := by
  cases h
  split
  · exact .refl s
  · rename_i h
    exact (State.takeAction_within h).trans (State.answer_within _ _ _)

/-! ### The port and the timebase -/

theorem execBusErrorRecord_within {n : Nat} {s t : State} (h : execBusErrorRecord n s = .next t) : s.Within t := by
  cases h
  dsimp only
  split
  · exact .refl s
  · split
    · refine (s.serveTo_only State.onRecord).within.trans ?_
      split
      · exact .of_front rfl
      · exact .of_inactive rfl le_rfl rfl rfl
    · exact .refl s

theorem execMemoryError_within {c : Side} {s t : State} (h : execMemoryError c s = .next t) : s.Within t := by
  cases h
  split
  · exact ((s.serveTo_only (State.onWord c)).trans (State.portIdle_only _)).within.event _
  · exact .refl s

theorem State.transferDone_within (s : State) (c : Side) (toHost : Bool) (f : Front → Engine → Transfer → Engine) :
    s.Within (s.transferDone c toHost f) := by
  unfold State.transferDone
  split
  · refine (s.serve_only (State.moved c toHost)).within.trans ?_
    dsimp only
    split
    · exact .refl _
    · exact State.engineEvent_within _ _
  · exact .refl s

theorem State.afterDone_within (s : State) (slot : Nat) (how : DoneHow) : s.Within (s.afterDone slot how) := by
  apply State.Within.of_eq <;> rw [State.afterDone_front]

theorem execDoneBitSet_within {s t : State} (h : execDoneBitSet s = .next t) : s.Within t := by
  cases h
  split
  · rename_i slot notify how late s' a
    have done : s'.Within { s' with front := s'.front.setDone slot notify } := .of_eq rfl rfl rfl rfl rfl
    have after := ((State.await_within a).trans done).trans (State.afterDone_within _ slot how)
    refine State.Within.settle (after.trans ?_)
    split <;> exact .of_front rfl
  · exact .refl s

/-- The rows that only set an ATTENTION bit once a write has completed. -/
theorem State.attention_within {s s' : State} {p : Notice → Bool} {n : Notice} (a : s.await p = some (n, s'))
    (bit : Nat) : s.Within { s' with engine := s'.engine.setAttention bit } :=
  (State.await_within a).trans (.of_front rfl)

theorem execUnloadTouchEnd_within {c : Side} {s t : State} (h : execUnloadTouchEnd c s = .next t) : s.Within t := by
  have config : s.Within ({ s with engine := s.engine.configTouchEnd s.front c } : State).tryStart := by
    refine State.Within.tryStart ?_
    exact .of_front rfl
  cases h
  split
  · exact s.engineEvent_within _
  · exact s.engineEvent_within _
  · exact config
  · exact config
  · exact .refl s

theorem State.trackLine_within (s : State) (c : Side) (trk0 : Bool) : s.Within (s.trackLine c trk0) := by
  unfold State.trackLine
  split
  · exact .of_eq rfl rfl rfl rfl rfl
  · exact .refl s

/-! ### The commands that change the clock, the tables or the queue of actions -/

theorem phaseAt_ne_idle (remaining window : Nat) : phaseAt remaining window ≠ .idle := by
  unfold phaseAt
  split
  · nofun
  · split <;> nofun

/-- A clock that has taken a preset or a count is in bounds, in no IDLE phase (R94). -/
theorem Front.Bounded.phased {x : Front} (h : x.Bounded) {k : Clock} (remaining : k.remaining ≤ Config.maxRemaining)
    (window : k.window = x.clock.window) (phase : k.phase = phaseAt k.remaining k.window) :
    (x.withClock k).Bounded :=
  ⟨h.actions, remaining, window ▸ h.window, fun hi => absurd (phase.symm.trans hi) (phaseAt_ne_idle _ _), h.overdue,
    h.retry, h.started⟩

/-- The running flag has no bound. -/
theorem Front.Bounded.running {x : Front} (h : x.Bounded) (b : Bool) :
    (x.withClock { x.clock with running := b }).Bounded :=
  ⟨h.actions, h.remaining, h.window, h.idle, h.overdue, h.retry, h.started⟩

theorem execPresetReadComplete_bounded {preset : Word} {s t : State} (h : execPresetReadComplete preset s = .next t)
    (k : s.front.Bounded) : t.front.Bounded := by
  cases h
  split
  · exact k
  · rename_i a
    exact ((State.await_within a).bounded k).phased (min_le_left _ _) rfl rfl

theorem execClockRun_bounded {s t : State} (h : execClockRun s = .next t) (k : s.front.Bounded) : t.front.Bounded := by
  cases h
  dsimp only
  split
  · exact k.running true
  · exact k

theorem execClockHalt_bounded {s t : State} (h : execClockHalt s = .next t) (k : s.front.Bounded) :
    t.front.Bounded := by
  cases h
  dsimp only
  split
  · exact k.running false
  · exact k

theorem execEditionCount_bounded {s t : State} (h : execEditionCount s = .next t) (k : s.front.Bounded) :
    t.front.Bounded := by
  have counted : (s.front.withClock s.front.clock.count).Bounded :=
    k.phased ((Nat.sub_le _ _).trans k.remaining) rfl rfl
  cases h
  dsimp only
  split
  · refine (State.settle_within _).bounded ?_
    split <;> exact counted
  · split
    · exact counted
    · exact k

theorem execActionWrite_bounded {w : Word} {s t : State} (h : execActionWrite w s = .next t) (k : s.front.Bounded) :
    t.front.Bounded := by
  cases h
  dsimp only
  split
  · split
    · rename_i room
      exact ⟨by simpa using room, k.remaining, k.window, k.idle, k.overdue, k.retry, k.started⟩
    · exact k
  · exact k

/-- What START commits is clamped (R164). -/
theorem checkArea_clamps {old : ByPair PairRecord} {a : AreaData} {image : List Word} {k : Commit}
    (h : checkArea old a image = .ok k) :
    k.tables.overdue ≤ 255 ∧ k.tables.retry ≤ 7 ∧ k.window ≤ Config.maxRushWindow := by
  unfold checkArea at h
  cases ht : checkTables old a with
  | error e => rw [ht] at h; cases h
  | ok p =>
    cases hi : imageOf p.2 p.1 (imageLength a) image with
    | error e => simp only [ht, bind, Except.bind, hi] at h; cases h
    | ok log =>
      simp only [ht, bind, Except.bind, hi] at h
      cases h
      exact ⟨min_le_left _ _, min_le_left _ _, min_le_left _ _⟩

/-- The phase on entering RUN is IDLE only where it was (R93). -/
theorem Clock.phaseOnStart_idle {k : Clock} {window : Nat} (h : k.phaseOnStart window = .idle) : k.phase = .idle := by
  unfold Clock.phaseOnStart at h
  split at h
  · exact absurd h (phaseAt_ne_idle _ _)
  · exact absurd h (phaseAt_ne_idle _ _)
  · assumption
  · cases h

theorem State.decideStart_bounded {s : State} (k : s.front.Bounded) (area : AreaData) (image : List Word) :
    (s.decideStart area image).front.Bounded := by
  unfold State.decideStart
  split
  · exact (s.failStart_within _ _).bounded k
  · rename_i commit hc
    obtain ⟨overdue, retry, window⟩ := checkArea_clamps hc
    refine (State.settle_within _).bounded ?_
    exact ⟨k.actions, k.remaining, window, fun hi => k.idle (Clock.phaseOnStart_idle hi), overdue, retry, fun _ => rfl⟩

theorem State.startTables_bounded {s : State} (hc : s.front.ctl = .starting) (k : s.front.Bounded) (area : AreaData) :
    (s.startTables area).front.Bounded := by
  unfold State.startTables
  split
  · exact (s.failStart_within _ _).bounded k
  · split
    · refine State.Within.bounded (s := s) ?_ k
      exact .of_inactive (by simp [Front.active, hc]) le_rfl rfl rfl
    · exact State.decideStart_bounded k area []

theorem State.startRead_bounded {s : State} (k : s.front.Bounded) {f : State → State}
    (hf : ∀ s', s'.front = s.front → (f s').front.Bounded) : (s.startRead f).front.Bounded := by
  unfold State.startRead
  split
  · exact k
  · rename_i a
    exact hf _ (State.await_only a).front

theorem execStartReadComplete_bounded {read : StartRead} {s t : State} (h : execStartReadComplete read s = .next t)
    (k : s.front.Bounded) : t.front.Bounded := by
  cases h
  split
  · rename_i hc _
    exact State.startRead_bounded k fun s' eq => State.startTables_bounded (eq ▸ hc) (eq ▸ k) _
  · exact State.startRead_bounded k fun s' eq => State.decideStart_bounded (eq ▸ k) _ _
  · exact k

theorem State.resetTo_bounded (s : State) (base : BitVec 12) (line : Bool) (moved : Nat) :
    (s.resetTo base line moved).front.Bounded :=
  ⟨Nat.zero_le _, Nat.zero_le _, Nat.zero_le _, fun _ => rfl, Nat.zero_le _, Nat.zero_le _, fun _ => rfl⟩

theorem exec_bounded {c : Instr} {s t : State} (h : exec c s = .next t) (k : s.front.Bounded) : t.front.Bounded := by
  have event {f : Front → Engine → Engine} (h : (Host.Outcome.next (s.engineEvent f) : Result) = .next t) :
      t.front.Bounded := by
    cases h
    exact (s.engineEvent_within f).bounded k
  have told {p : Notice → Bool} {bit : Nat}
      (h : (Host.Outcome.next (match s.await p with
        | none => s
        | some (_, s) => { s with engine := s.engine.setAttention bit }) : Result) = .next t) : t.front.Bounded := by
    cases h
    split
    · exact k
    · exact (State.attention_within ‹_› bit).bounded k
  have answered {row : Word → Bool} {f : State → Word → State}
      (h : (Host.Outcome.next (s.act row f) : Result) = .next t) (hf : ∀ (s : State) (w : Word), s.Within (f s w)) : t.front.Bounded := by
    cases h
    exact (s.act_within row f hf).bounded k
  have written {p : Prop} [Decidable p] {s' : State}
      (h : (Host.Outcome.next (if p then s' else s) : Result) = .next t) (hs : s.Within s') : t.front.Bounded := by
    cases h
    split
    · exact hs.bounded k
    · exact k
  cases c with
  | start => exact (execStart_within h).bounded k
  | startReadComplete read => exact execStartReadComplete_bounded h k
  | stop => exact (execStop_within h).bounded k
  | abortAll => exact (execAbortAll_within h).bounded k
  | reset moved =>
    cases h
    split
    · exact s.resetTo_bounded _ _ _
    · exact k
  | clockLoad => exact written h (.of_front rfl)
  | presetReadComplete preset => exact execPresetReadComplete_bounded h k
  | clockRun => exact execClockRun_bounded h k
  | clockHalt => exact execClockHalt_bounded h k
  | areaBaseWrite w => exact written h (.of_eq rfl rfl rfl rfl rfl)
  | actionWrite w => exact execActionWrite_bounded h k
  | doneClear high w => exact written h (.of_eq rfl rfl rfl rfl rfl)
  | attentionClear w => exact written h (.of_front rfl)
  | post => exact (execPost_within h).bounded k
  | slotReadComplete words => exact (execSlotReadComplete_within h).bounded k
  | withdraw => exact (execWithdraw_within h).bounded k
  | repost => exact answered h fun _ _ => .of_eq rfl rfl rfl rfl rfl
  | surveyOnce => exact answered h fun _ _ => .of_eq rfl rfl rfl rfl rfl
  | surveyLoop => exact answered h fun _ _ => .of_eq rfl rfl rfl rfl rfl
  | surveyStop => exact answered h fun _ _ => .of_eq rfl rfl rfl rfl rfl
  | badAction => exact (execBadAction_within h).bounded k
  | resetLine moved =>
    cases h
    exact s.resetTo_bounded _ _ _
  | resetLineRelease =>
    cases h
    exact State.Within.bounded (s := s) (.of_eq rfl rfl rfl rfl rfl) k
  | busGrant =>
    cases h
    exact s.grant_only.within.bounded k
  | busErrorRecord word => exact (execBusErrorRecord_within h).bounded k
  | memoryError c => exact (execMemoryError_within h).bounded k
  | bufferCopyComplete c =>
    cases h
    exact (s.transferDone_within _ _ _).bounded k
  | bufferFetchComplete c data =>
    cases h
    exact (s.transferDone_within _ _ _).bounded k
  | doneBitSet => exact (execDoneBitSet_within h).bounded k
  | driveAttention d => exact told h
  | surveyDone => exact told h
  | configError => exact told h
  | ageTick => exact written h (.of_front rfl)
  | headUnloadExpiry d => exact event h
  | unloadTouchEnd c => exact (execUnloadTouchEnd_within h).bounded k
  | surveyWaitExpiry =>
    cases h
    exact s.settle_within.bounded k
  | roundTick => exact written h (.settle (.of_eq rfl rfl rfl rfl rfl))
  | editionCount => exact execEditionCount_bounded h k
  | claim c => exact event h
  | stepTimeEnd c trk0 =>
    cases h
    exact ((s.trackLine_within c trk0).event _).bounded k
  | settleEnd c => exact event h
  | headLoadEnd c => exact event h
  | idFieldRead c field => exact event h
  | dataFieldRead c field => exact event h
  | dataFieldWritten c => exact event h
  | passAcross c => exact event h
  | searchTimeout c sector => exact event h
  | indexPulse c elapsed => exact event h
  | noIndexTimeout c => exact event h
  | readySample d lines =>
    cases h
    refine State.Within.bounded (s := s) (State.Within.event ?_ _) k
    exact .of_eq rfl rfl rfl rfl rfl
  | surveyStepTimeout c => exact event h
  | nominalFinalFillEnd c => exact event h

/-- Settles O5: most commands leave what has bounds; a preset, a count, an ACTION write and START's commit are clamped
or tested, each in its own lemma. -/
theorem frontKeepsItsBounds : Obligations.FrontKeepsItsBounds := by
  intro s t k h
  unfold step at h
  split at h
  · cases h
    exact k
  · rename_i c rest _
    exact exec_bounded (s := { s with pending := rest }) h k

end Sys2Proof.Machine

namespace Sys2Proof.Machine

/-! ### The room of the split log (R36, R59, R63)

`Engine.Roomy` is what O8 says of the engine, with each slot held once. The operations that change the log, the
reserved total or an order's reservation come first, each with its own argument; the others keep it because what they
call keeps it, one lemma an operation, as for `Engine.Keeps`. -/

/-- What an order may have reserved: only a grant that is not finished has a reservation, and a mirrored run that writes
or checks has one entry for each sector that is not resolved (R36, R63). -/
structure Order.Covered (o : Order) : Prop where
  granted : o.reservation ≠ 0 → o.finish = none ∧ (o.state = .running ∨ o.state = .boundWait) ∧ o.kind ≠ .mend
  unresolved : o.finish = none → o.mirrored = true → o.kind.writes = true ∨ o.kind = .check →
    o.resolved.count false ≤ o.reservation

/-- Used and reserved entries fit the log, and the reserved total is what the orders have reserved (R59, R63). -/
structure Engine.Roomy (e : Engine) : Prop where
  once : (e.held.map Order.slot).Nodup
  room : e.log.length + e.reserved ≤ 32
  total : e.reserved = (e.held.map Order.reservation).sum
  covered : ∀ o ∈ e.held, o.Covered

/-- The parts of an order's record that its reservation depends on. -/
def Order.roomKey (o : Order) : Nat × OrderFields × RosterState × Option FinishCode × Nat × Bool × List Bool :=
  (o.slot, o.fields, o.state, o.finish, o.reservation, o.mirrored, o.resolved)

theorem Order.Covered.of_roomKey {o o' : Order} (h : o.Covered) (k : o'.roomKey = o.roomKey) : o'.Covered := by
  simp only [Order.roomKey, Prod.mk.injEq] at k
  obtain ⟨-, fields, state, finish, reservation, mirrored, resolved⟩ := k
  have kind : o'.kind = o.kind := congrArg OrderFields.kind fields
  exact ⟨by rw [finish, state, kind, reservation]; exact h.granted,
    by rw [finish, mirrored, kind, resolved, reservation]; exact h.unresolved⟩

/-- An order without a reservation is covered where nothing of a mirrored run asks for one. -/
theorem Order.Covered.of_free {o : Order} (h : o.reservation = 0) (k : o.finish = none → o.mirrored = false) :
    o.Covered :=
  ⟨fun hr => absurd h hr, fun hf hm => absurd (k hf) (by simp [hm])⟩

section
variable {x : Front} {e e' : Engine}

/-- A change of neither the orders nor the reserved total that makes the log no longer. -/
theorem Engine.Roomy.same (h : e.Roomy) (held : e'.held = e.held) (reserved : e'.reserved = e.reserved)
    (log : e'.log.length ≤ e.log.length) : e'.Roomy where
  once := held ▸ h.once
  room := by have := h.room; omega
  total := by rw [reserved, held, h.total]
  covered := held ▸ h.covered

theorem Engine.Around.reserved (h : e.Around e') : e'.reserved = e.reserved := by
  obtain ⟨p, v, t, k, r, rfl⟩ := h
  rfl

theorem Engine.Roomy.around (h : e.Roomy) (k : e.Around e') : e'.Roomy :=
  h.same k.held k.reserved (le_of_eq (congrArg List.length k.log))

/-- The records of the orders change, with their slots and reservations as they were. -/
theorem Engine.Roomy.mapCovered (h : e.Roomy) {f : Order → Order} (slots : ∀ o, (f o).slot = o.slot)
    (covered : ∀ o : Order, o.Covered → (f o).reservation = o.reservation ∧ (f o).Covered) :
    Engine.Roomy { e with held := e.held.map f } where
  once := by
    have : Order.slot ∘ f = Order.slot := funext slots
    simpa only [List.map_map, this] using h.once
  room := h.room
  total := by
    have : (e.held.map f).map Order.reservation = e.held.map Order.reservation := by
      rw [List.map_map]
      exact List.map_congr_left fun o ho => (covered o (h.covered o ho)).1
    simpa only [this] using h.total
  covered o ho := by
    obtain ⟨o', ho', rfl⟩ := List.mem_map.mp ho
    exact (covered o' (h.covered o' ho')).2

/-- The orders with the parts of their records that a reservation depends on as they were. -/
theorem Engine.Roomy.mapHeld (h : e.Roomy) {f : Order → Order} (hf : ∀ o, (f o).roomKey = o.roomKey) :
    Engine.Roomy { e with held := e.held.map f } :=
  h.mapCovered (fun o => congrArg Prod.fst (hf o))
    fun o k => ⟨congrArg (·.2.2.2.2.1) (hf o), k.of_roomKey (hf o)⟩

theorem Engine.Roomy.updOrder (h : e.Roomy) (slot : Nat) {f : Order → Order} (hf : ∀ o, (f o).roomKey = o.roomKey) :
    (e.updOrder slot f).Roomy := by
  refine h.mapHeld fun o => ?_
  split
  · exact hf o
  · rfl

/-- What is reserved when the order of a slot is changed. -/
theorem sum_reservation_map_slot {l : List Order} {o : Order} (hn : (l.map Order.slot).Nodup) (ho : o ∈ l)
    (f : Order → Order) :
    ((l.map fun o' => if o'.slot == o.slot then f o' else o').map Order.reservation).sum + o.reservation =
      (l.map Order.reservation).sum + (f o).reservation := by
  have perm := perm_cons_filter_slot hn ho
  have others : ((l.filter fun o' => !(o'.slot == o.slot)).map fun o' => if o'.slot == o.slot then f o' else o') =
      l.filter fun o' => !(o'.slot == o.slot) := by
    refine (List.map_congr_left fun o' ho' => ?_).trans (List.map_id _)
    have : o'.slot ≠ o.slot := by simpa using (List.mem_filter.mp ho').2
    simp [this]
  have before := (perm.map Order.reservation).sum_eq
  have after := ((perm.map fun o' => if o'.slot == o.slot then f o' else o').map Order.reservation).sum_eq
  simp only [List.map_cons, List.sum_cons] at before
  simp only [List.map_cons, List.sum_cons, others, beq_self_eq_true, if_true] at after
  omega

/-- An order's reservation is a part of the reserved total. -/
theorem Engine.Roomy.le_reserved (h : e.Roomy) {o : Order} (ho : o ∈ e.held) : o.reservation ≤ e.reserved := by
  rw [h.total]
  exact List.single_le_sum (by simp) _ (List.mem_map_of_mem ho)

/-- The order of a slot changes with its reservation, and the reserved total follows. -/
theorem Engine.Roomy.change (h : e.Roomy) {slot : Nat} {o : Order} (ho : e.order? slot = some o) {f : Order → Order}
    (slots : ∀ o', (f o').slot = o'.slot) (covered : (f o).Covered)
    (held : e'.held = e.held.map fun o' => if o'.slot == slot then f o' else o')
    (reserved : e'.reserved + o.reservation = e.reserved + (f o).reservation)
    (room : e'.log.length + e'.reserved ≤ 32) : e'.Roomy := by
  obtain ⟨mem, rfl⟩ := Engine.order?_mem ho
  refine ⟨?_, room, ?_, fun o' ho' => ?_⟩
  · rw [held, e.map_slot_slots o.slot slots]
    exact h.once
  · have := sum_reservation_map_slot h.once mem f
    rw [held]
    have := h.total
    omega
  · rw [held] at ho'
    obtain ⟨o'', mem'', rfl⟩ := List.mem_map.mp ho'
    split
    · rename_i hs
      rwa [Engine.order?_unique h.once ho o'' mem'' (by simpa using hs)]
    · exact h.covered o'' mem''

/-- An order gives its reservation back and goes on without one. -/
theorem Engine.Roomy.became (h : e.Roomy) {slot : Nat} {o : Order} (ho : e.order? slot = some o) {f : Order → Order}
    (slots : ∀ o', (f o').slot = o'.slot) (free : (f { o with reservation := 0 }).reservation = 0)
    (covered : (f { o with reservation := 0 }).Covered) (rs : List Request) : (e.became x slot o f rs).Roomy := by
  have le := h.le_reserved (Engine.order?_mem ho).1
  have := h.room
  refine h.change (f := fun o => f { o with reservation := 0 }) ho (fun o' => slots _) covered rfl ?_ ?_
  · rw [free]
    simp only [Engine.became]
    omega
  · simp only [Engine.became]
    omega

/-! ### A sector is resolved (R63, R66 to R72) -/

theorem List.count_false_set {l : List Bool} {i : Nat} (h : l.getD i true = false) :
    (l.set i true).count false + 1 = l.count false := by
  have hi : i < l.length := by
    by_contra hn
    rw [List.getD_eq_default _ _ (Nat.not_lt.mp hn)] at h
    cases h
  have hv : l[i] = false := by rwa [List.getD_eq_getElem _ _ hi] at h
  have pos : 0 < l.count false := List.count_pos_iff.mpr (hv ▸ List.getElem_mem hi)
  rw [List.count_set hi, hv]
  simp only [beq_self_eq_true, if_true]
  simp
  omega

/-- The order of a slot has a sector to resolve, which its reservation covers. -/
structure Engine.Resolvable (e : Engine) (slot i : Nat) (o : Order) : Prop where
  found : e.order? slot = some o
  open' : o.finish = none
  mirrored : o.mirrored = true
  kind : o.kind.writes = true ∨ o.kind = .check
  unresolved : o.resolved.getD i true = false

/-- The order's record when one of its sectors has been resolved. -/
def Order.sectorResolved (o : Order) (i : Nat) (isDone : Bool) : Order :=
  { o with
    reservation := o.reservation - 1, resolved := o.resolved.set i true,
    sectorsDone := if isDone then min 65535 (o.sectorsDone + 1) else o.sectorsDone }

/-- With its sector resolved the order has one entry less reserved, and the log has a free one. -/
theorem Engine.Roomy.spent (h : e.Roomy) {slot i : Nat} {o : Order} (k : e.Resolvable slot i o) (isDone : Bool) :
    ((e.spend slot).markResolved slot i isDone).Roomy ∧
      ((e.spend slot).markResolved slot i isDone).log.length +
        ((e.spend slot).markResolved slot i isDone).reserved < 32 := by
  obtain ⟨mem, -⟩ := Engine.order?_mem k.found
  have count := List.count_false_set k.unresolved
  have covers := (h.covered o mem).unresolved k.open' k.mirrored k.kind
  have le := h.le_reserved mem
  have room := h.room
  have pos : o.reservation ≠ 0 := by omega
  have eq : (e.spend slot).markResolved slot i isDone =
      { e with reserved := e.reserved - 1 }.updOrder slot (Order.sectorResolved · i isDone) := by
    simp only [Engine.spend, k.found, pos, if_false, Engine.markResolved]
    exact Engine.updOrder_updOrder _ _ _ _ fun _ => rfl
  have free : e.log.length + (e.reserved - 1) < 32 := by omega
  rw [eq]
  refine ⟨h.change (f := (Order.sectorResolved · i isDone)) k.found (fun _ => rfl)
    ⟨fun _ => (h.covered o mem).granted pos, fun _ _ _ => ?_⟩ rfl ?_ free.le, free⟩
  · show (o.resolved.set i true).count false ≤ o.reservation - 1
    omega
  · show e.reserved - 1 + o.reservation = e.reserved + (o.reservation - 1)
    omega

theorem Engine.Roomy.writeReserved (h : e.Roomy) : (e.writeReserved x).Roomy := h.same rfl rfl le_rfl

theorem Engine.Roomy.logRemove (h : e.Roomy) (p : LogEntry → Bool) : (e.logRemove x p).Roomy := by
  obtain ⟨held, -, reserved, -⟩ := Engine.logRemove_frame x e p
  refine h.same held reserved ?_
  rw [(Engine.logRemove_log x e p).1]
  exact List.length_filter_le _ _

/-- An outcome is logged in an entry that is free (R69). -/
theorem Engine.Roomy.logOutcome (h : e.Roomy) (free : e.log.length + e.reserved < 32) (o : Order) (pl : Place)
    (good : Side) : (e.logOutcome x o pl good).Roomy := by
  have set (l : LogEntry) : (e.logSet x l).Roomy := by
    obtain ⟨held, -, reserved, -⟩ := Engine.logSet_frame x e l
    have length : (e.logSet x l).log.length ≤ e.log.length + 1 := by
      unfold Engine.logSet
      split <;> simp
    refine ⟨held ▸ h.once, ?_, by rw [reserved, held]; exact h.total, held ▸ h.covered⟩
    omega
  unfold Engine.logOutcome
  split
  · exact (set _).updOrder _ fun _ => rfl
  · exact h.writeReserved

theorem Engine.Roomy.resolveWrite (h : e.Roomy) {i : Nat} {o : Order} (k : e.Resolvable o.slot i o) (final : Bool) :
    (e.resolveWrite x o i final).1.Roomy := by
  unfold Engine.resolveWrite
  dsimp only
  split
  · obtain ⟨spent, free⟩ := h.spent k (o.entry .A i == .done || o.entry .B i == .done)
    split
    · split
      · exact spent.logRemove _
      · exact spent.writeReserved
    · exact spent.logOutcome free _ _ _
    · exact spent.logOutcome free _ _ _
    · exact spent.writeReserved
  · exact h

theorem Engine.Roomy.resolveCheck (h : e.Roomy) {i : Nat} {o : Order} (k : e.Resolvable o.slot i o) (final : Bool) :
    (e.resolveCheck x o i final).1.Roomy := by
  have logged (b : Bool) (c : Side) : (if b = true
      then ((e.spend o.slot).markResolved o.slot i true).logOutcome x o (o.place x i) c
      else ((e.spend o.slot).markResolved o.slot i true).writeReserved x).Roomy := by
    obtain ⟨spent, free⟩ := h.spent k true
    cases b
    · exact spent.writeReserved
    · exact spent.logOutcome free _ _ _
  unfold Engine.resolveCheck
  dsimp only
  split
  · split
    · exact (h.spent k false).1.writeReserved
    · split
      · exact (h.spent k true).1.writeReserved
      · exact logged _ .A
      · exact logged _ .B
      · exact (h.spent k false).1.writeReserved
  · exact h

theorem Engine.Roomy.resolveOnce (h : e.Roomy) (slot i : Nat) (final : Bool) :
    (e.resolveOnce x slot i final).1.Roomy := by
  unfold Engine.resolveOnce
  split
  · exact h
  · rename_i o ho
    split
    · rename_i hr
      simp only [Bool.and_eq_true, Option.isNone_iff_eq_none, Bool.not_eq_true'] at hr
      obtain ⟨⟨mirrored, finish⟩, unresolved⟩ := hr
      have resolvable (hk : o.kind.writes = true ∨ o.kind = .check) : e.Resolvable o.slot i o :=
        ⟨(Engine.order?_mem ho).2 ▸ ho, finish, mirrored, hk, unresolved⟩
      split <;> rename_i hk
      · exact h.resolveWrite (resolvable (by simp [hk, Kind.writes])) final
      · split
        · exact h.resolveWrite (resolvable (by simp [hk, Kind.writes])) final
        · exact h
      · exact h.resolveWrite (resolvable (by simp [hk, Kind.writes])) final
      · exact h.resolveCheck (resolvable (.inr hk)) final
      all_goals exact h
    · exact h

theorem Engine.Roomy.foldl {ι : Type} (f : Engine → ι → Engine) (l : List ι)
    (hf : ∀ (e : Engine) (i : ι), e.Roomy → (f e i).Roomy) : ∀ {e : Engine}, e.Roomy → (l.foldl f e).Roomy := by
  induction l with
  | nil => exact fun h => h
  | cons i l ih => exact fun h => ih (hf _ i h)

theorem Engine.Roomy.resolveRest (h : e.Roomy) (slot : Nat) : (e.resolveRest x slot).Roomy := by
  unfold Engine.resolveRest
  split
  · exact h
  · exact Engine.Roomy.foldl _ _ (fun e i h => h.resolveOnce slot i true) h

/-! ### A run ends (R24, R63, R76, R86) -/

theorem Engine.Roomy.decideFinish (h : e.Roomy) (slot : Nat) (code : FinishCode) (late : Bool) :
    (e.decideFinish x slot code late).Roomy := by
  cases ho : e.order? slot with
  | none => simpa only [Engine.decideFinish, ho] using h
  | some o =>
    cases hf : o.finish with
    | some c => simpa only [Engine.decideFinish, ho, hf, Option.isSome_some, if_true] using h
    | none =>
      rw [Engine.decideFinish_eq x ho h.once hf]
      exact h.became (f := (Order.finished · code)) ho (fun _ => rfl) rfl (.of_free rfl fun k => by cases k) _

theorem Engine.Roomy.backToStanding (h : e.Roomy) (slot : Nat) (code : FinishCode) :
    (e.backToStanding x slot code).Roomy := by
  cases ho : e.order? slot with
  | none => simpa only [Engine.backToStanding, ho] using h
  | some o =>
    rw [Engine.backToStanding_eq x ho h.once]
    exact h.became (f := fun o => { o.clearRun with state := .waitingRound }) ho (fun _ => rfl) rfl
      (.of_free rfl fun _ => rfl) _

/-- A permuted list. -/
theorem Engine.Roomy.perm (h : e.Roomy) {l : List Order} (p : l.Perm e.held) : Engine.Roomy { e with held := l } where
  once := (p.map _).nodup_iff.mpr h.once
  room := h.room
  total := h.total.trans (p.map _).sum_eq.symm
  covered o ho := h.covered o (p.mem_iff.mp ho)

theorem Engine.Roomy.toTail (h : e.Roomy) (slot : Nat) : (e.toTail slot).Roomy :=
  h.perm (List.perm_append_comm.trans (List.filter_append_perm (fun o : Order => o.slot == slot) e.held))

/-- A MEND has nothing reserved. -/
theorem Order.Covered.free_of_mend {o : Order} (h : o.Covered) (k : o.kind = .mend) : o.reservation = 0 := by
  by_contra hr
  exact (h.granted hr).2.2 k

theorem Engine.Roomy.requeueMend (h : e.Roomy) {slot : Nat} {o : Order} (ho : e.order? slot = some o)
    (k : o.kind = .mend) : (e.requeueMend x slot).Roomy := by
  have free := (h.covered o (Engine.order?_mem ho).1).free_of_mend k
  have changed : (e.updOrder slot Order.requeued).Roomy :=
    h.change (f := Order.requeued) ho (fun _ => rfl) (.of_free free fun _ => rfl) rfl rfl h.room
  rw [Engine.requeueMend_eq]
  exact (changed.toTail slot).same rfl rfl le_rfl

theorem Engine.Roomy.mendLeft (h : e.Roomy) {slot : Nat} {o : Order} (ho : e.order? slot = some o)
    (k : o.kind = .mend) : (e.mendLeft x slot).Roomy := by
  unfold Engine.mendLeft
  split
  · exact h.requeueMend ho k
  · exact h.decideFinish _ _ _

theorem Engine.Roomy.pairAttach (h : e.Roomy) (p : PairId) : (e.pairAttach x p).Roomy := by
  refine (h.mapHeld (f := fun o => if o.kind == .mend && o.pair == p then { o with cursor := none } else o)
    fun o => ?_).same rfl rfl le_rfl
  split <;> rfl

theorem Engine.Roomy.endTurn (h : e.Roomy) {o : Order} (ho : e.order? o.slot = some o) (k : o.kind = .mend) :
    (e.endTurn x o).Roomy := by
  cases hm : (e.pairs.get o.pair).mode with
  | attached =>
    rw [Engine.endTurn_attached hm]
    split
    · exact h.mendLeft ho k
    · exact h.decideFinish _ _ _
  | detached =>
    cases ht : o.turn with
    | none =>
      rw [Engine.endTurn_noTurn hm ht]
      exact h.mendLeft ho k
    | some t =>
      rw [Engine.endTurn_turn hm ht]
      split
      · exact (h.pairAttach _).decideFinish _ _ _
      · have moved := h.updOrder o.slot (f := fun o => { o with cursor := some (t.track + 1) }) fun _ => rfl
        refine moved.mendLeft (o := { o with cursor := some (t.track + 1) }) ?_ k
        rw [Engine.order?_updOrder _ _ _ fun _ => by rfl, ho]
        rfl

theorem Engine.Roomy.endRun (h : e.Roomy) (slot : Nat) : (e.endRun x slot).Roomy := by
  have ended : (e.ended x slot).Roomy := (h.resolveRest slot).updOrder slot (f := Order.runEnded x) fun _ => rfl
  -- with no order left to end, or one whose finish is decided, only the records have changed
  have unchanged (hf : ∀ o, (e.ended x slot).order? slot = some o → o.finish.isSome = true) :
      e.endRun x slot = e.ended x slot := by
    unfold Engine.endRun
    dsimp only
    split
    · rfl
    · rename_i o ho
      exact if_pos (hf o ho)
  cases ho : (e.resolveRest x slot).order? slot with
  | none =>
    rw [unchanged fun o k => ?_]
    · exact ended
    · rw [Engine.ended, Engine.order?_updOrder _ _ (Order.runEnded x) fun _ => rfl, ho] at k
      cases k
  | some o =>
    have found := Engine.ended_order? x ho
    cases hf : o.finish with
    | some c =>
      rw [unchanged fun o' k => ?_]
      · exact ended
      · obtain rfl := Option.some.inj (found.symm.trans k)
        simp [Order.runEnded, hf]
    | none =>
      rw [Engine.endRun_eq ho hf]
      have slots : (o.runEnded x).slot = slot := (Engine.order?_mem found).2
      split
      · rename_i hk
        exact ended.endTurn (slots ▸ found) hk.1
      · split
        · split
          · exact ended.backToStanding _ _
          · exact ended.decideFinish _ _ _
        · exact ended.decideFinish _ _ _

/-! ### Operations that leave the orders and the log -/

theorem Engine.Roomy.setChan (h : e.Roomy) (c : Side) (v : Channel) : (e.setChan c v).Roomy := h.same rfl rfl le_rfl

theorem Engine.Roomy.updChan (h : e.Roomy) (c : Side) (f : Channel → Channel) : (e.updChan c f).Roomy :=
  h.same rfl rfl le_rfl

theorem Engine.Roomy.setDrive (h : e.Roomy) (d : Drive) (k : Knowledge) : (e.setDrive d k).Roomy :=
  h.same rfl rfl le_rfl

theorem Engine.Roomy.setTimer (h : e.Roomy) (d : Drive) (t : Timer) : (e.setTimer d t).Roomy := h.same rfl rfl le_rfl

theorem Engine.Roomy.setAttention (h : e.Roomy) (n : Nat) : (e.setAttention n).Roomy := h.same rfl rfl le_rfl

theorem Engine.Roomy.issue (h : e.Roomy) (k : RequestKind) (ws : List Access) (n : Option Notice) :
    (e.issue k ws n).Roomy := h.same rfl rfl le_rfl

theorem Engine.Roomy.writeStatus (h : e.Roomy) (d : Drive) (n : Option Notice) : (e.writeStatus x d n).Roomy :=
  h.issue _ _ _

theorem Engine.Roomy.writePhase (h : e.Roomy) (slot phase : Nat) (n : Option Notice) :
    (e.writePhase x slot phase n).Roomy := h.issue _ _ _

theorem Engine.Roomy.enter (h : e.Roomy) (c : Side) (st : ChannelState) : (e.enter x c st).Roomy :=
  h.around (Engine.enter_onlyChannel x e c st).around

theorem Engine.Roomy.deselect (h : e.Roomy) (c : Side) (survey : Bool) (n : Option Notice) :
    (e.deselect x c survey n).Roomy := h.around (Engine.deselect_onlyChannel x e c survey n).around

theorem Engine.Roomy.toIdle (h : e.Roomy) (c : Side) : (e.toIdle x c).Roomy :=
  h.around (Engine.toIdle_onlyChannel x e c).around

theorem Engine.Roomy.rest (h : e.Roomy) (c : Side) : (e.rest c).Roomy := h.updChan c _

theorem Engine.Roomy.changeDrive (h : e.Roomy) (d : Drive) (f : Knowledge → Knowledge) :
    (e.changeDrive x d f).Roomy :=
  h.setDrive d _

theorem Engine.Roomy.updDrive (h : e.Roomy) (d : Drive) (f : Knowledge → Knowledge) : (e.updDrive x d f).Roomy := by
  unfold Engine.updDrive
  dsimp only
  split
  · exact (h.setDrive d _).writeStatus d none
  · exact h.setDrive d _

theorem Engine.Roomy.setSurvey (h : e.Roomy) (v : Survey) : (e.setSurvey x v).Roomy := by
  unfold Engine.setSurvey
  dsimp only
  split <;> exact h.same rfl rfl le_rfl

theorem Engine.Roomy.pairChange (h : e.Roomy) (d : Drive) : (e.pairChange x d).Roomy := by
  unfold Engine.pairChange
  dsimp only
  split
  · refine Engine.Roomy.logRemove ?_ _
    exact h.same rfl rfl le_rfl
  · exact h

theorem Engine.Roomy.pairDetach (h : e.Roomy) (d : Drive) : (e.pairDetach x d).Roomy := by
  refine Engine.Roomy.logRemove ?_ _
  exact h.same rfl rfl le_rfl

theorem Engine.Roomy.setBack (h : e.Roomy) (p : PairId) (track : Nat) : (e.setBack p track).Roomy := by
  unfold Engine.setBack
  split
  · refine h.mapHeld fun o => ?_
    split <;> rfl
  · exact h

/-! ### Operations that keep the room because what they call keeps it -/

theorem Engine.Roomy.release (h : e.Roomy) (c : Side) : (e.release x c).Roomy := by
  dsimp only [Engine.release]
  repeat' first
    | with_reducible exact h | split | with_reducible apply Roomy.deselect | with_reducible apply Roomy.toIdle
    | with_reducible apply Roomy.endRun

theorem Engine.Roomy.tryClean (h : e.Roomy) (c : Side) : (e.tryClean x c).Roomy := by
  dsimp only [Engine.tryClean]
  repeat' first
    | with_reducible exact h | split | with_reducible apply Roomy.rest | with_reducible apply Roomy.release

theorem Engine.Roomy.stopChannel (h : e.Roomy) (c : Side) (slot : Nat) : (e.stopChannel x c slot).Roomy := by
  dsimp only [Engine.stopChannel]
  repeat' first
    | with_reducible exact h | split | with_reducible apply Roomy.updChan | with_reducible apply Roomy.tryClean

theorem Engine.Roomy.stopOrder (h : e.Roomy) (slot : Nat) : (e.stopOrder x slot).Roomy := by
  dsimp only [Engine.stopOrder]
  repeat' first
    | with_reducible exact h | split | with_reducible apply Roomy.stopChannel

theorem Engine.Roomy.freeWaiter (h : e.Roomy) (c : Side) (slot : Nat) : (e.freeWaiter x c slot).Roomy := by
  dsimp only [Engine.freeWaiter]
  repeat' first
    | with_reducible exact h | split | with_reducible apply Roomy.updChan | with_reducible apply Roomy.tryClean

theorem Engine.Roomy.finishWaiting (h : e.Roomy) (slot : Nat) (code : FinishCode) (late : Bool) :
    (e.finishWaiting x slot code late).Roomy := by
  dsimp only [Engine.finishWaiting]
  repeat' first
    | with_reducible exact h | split | with_reducible apply Roomy.decideFinish
    | with_reducible apply Roomy.freeWaiter

theorem Engine.Roomy.setPending (h : e.Roomy) (slot : Nat) (code : FinishCode) (pl : Place) :
    (e.setPending x slot code pl).Roomy := by
  dsimp only [Engine.setPending]
  repeat' first
    | with_reducible exact h | split | with_reducible apply Roomy.updOrder
    | with_reducible apply Roomy.stopOrder | exact fun _ => rfl

theorem Engine.Roomy.resolve (h : e.Roomy) (slot i : Nat) : (e.resolve x slot i).Roomy := by
  have k := h.resolveOnce (x := x) slot i false
  dsimp only [Engine.resolve]
  split
  · exact h
  · split <;> rename_i heq <;> rw [heq] at k
    · exact k
    · exact k.setPending _ _ _

theorem Engine.Roomy.resolveAll (h : e.Roomy) (slot : Nat) : (e.resolveAll x slot).Roomy := by
  dsimp only [Engine.resolveAll]
  repeat' first
    | with_reducible exact h | split | with_reducible apply Roomy.resolve | (apply Roomy.foldl; intro e i h)

theorem Engine.Roomy.failSide (h : e.Roomy) (c : Side) (code : FinishCode) : (e.failSide x c code).Roomy := by
  dsimp only [Engine.failSide]
  repeat' first
    | with_reducible exact h | split | with_reducible apply Roomy.updChan | with_reducible apply Roomy.updOrder
    | with_reducible apply Roomy.setPending | with_reducible apply Roomy.resolveAll
    | with_reducible apply Roomy.release | exact fun _ => rfl

theorem Engine.Roomy.headUnloaded (h : e.Roomy) (d : Drive) : (e.headUnloaded x d).Roomy := by
  dsimp only [Engine.headUnloaded]
  repeat' first
    | with_reducible exact h | split | with_reducible apply Roomy.updDrive

theorem Engine.Roomy.endSurveyStep (h : e.Roomy) (c : Side) : (e.endSurveyStep x c).Roomy := by
  dsimp only [Engine.endSurveyStep]
  repeat' first
    | with_reducible exact h | split | with_reducible apply Roomy.setDrive | with_reducible apply Roomy.deselect
    | with_reducible apply Roomy.toIdle | with_reducible apply Roomy.setSurvey

theorem Engine.Roomy.holdFailure (h : e.Roomy) (c : Side) (code : FinishCode) : (e.holdFailure x c code).Roomy := by
  dsimp only [Engine.holdFailure]
  repeat' first
    | with_reducible exact h | split | with_reducible apply Roomy.deselect | with_reducible apply Roomy.updChan

theorem Engine.Roomy.leaveReady (h : e.Roomy) (d : Drive) (code : FinishCode) : (e.leaveReady x d code).Roomy := by
  dsimp only [Engine.leaveReady]
  repeat' first
    | with_reducible exact h | split | with_reducible apply Roomy.endSurveyStep
    | with_reducible apply Roomy.tryClean | with_reducible apply Roomy.holdFailure
    | with_reducible apply Roomy.failSide

theorem Engine.Roomy.meetChange (h : e.Roomy) (d : Drive) (slot : Nat) : (e.meetChange x d slot).Roomy := by
  dsimp only [Engine.meetChange]
  repeat' first
    | with_reducible exact h | split | with_reducible apply Roomy.finishWaiting
    | with_reducible apply Roomy.updOrder | with_reducible apply Roomy.stopOrder | exact fun _ => rfl

theorem Engine.Roomy.rosterChange (h : e.Roomy) (d : Drive) : (e.rosterChange x d).Roomy := by
  dsimp only [Engine.rosterChange]
  repeat' first
    | with_reducible exact h | split | with_reducible apply Roomy.meetChange | (apply Roomy.foldl; intro e i h)

theorem Engine.Roomy.mediumChange (h : e.Roomy) (d : Drive) : (e.mediumChange x d).Roomy := by
  dsimp only [Engine.mediumChange]
  repeat' first
    | with_reducible exact h | split | with_reducible apply Roomy.setDrive
    | with_reducible apply Roomy.rosterChange | with_reducible apply Roomy.pairChange
    | with_reducible apply Roomy.writeStatus

/-! ### What a drive's lines make of it (R104, R113, R144 to R152) -/

theorem Engine.Roomy.setState (h : e.Roomy) (d : Drive) (st : DriveState) (tell : Bool) :
    (e.setState x d st tell).Roomy := by
  dsimp only [Engine.setState]
  repeat' first
    | with_reducible exact h | split | with_reducible apply Roomy.setDrive
    | with_reducible apply Roomy.writeStatus

theorem Engine.Roomy.takeLevel (h : e.Roomy) (d : Drive) (level : Bool) : (e.takeLevel x d level).Roomy := by
  dsimp only [Engine.takeLevel]
  repeat' first
    | with_reducible exact h | split | with_reducible apply Roomy.setDrive | with_reducible apply Roomy.setState
    | with_reducible apply Roomy.mediumChange | with_reducible apply Roomy.leaveReady

theorem Engine.Roomy.sampleReady (h : e.Roomy) (d : Drive) (level : Bool) : (e.sampleReady x d level).Roomy := by
  dsimp only [Engine.sampleReady]
  repeat' first
    | with_reducible exact h | split | with_reducible apply Roomy.setDrive
    | with_reducible apply Roomy.takeLevel

theorem Engine.Roomy.sampleFlags (h : e.Roomy) (d : Drive) (l : Lines) : (e.sampleFlags x d l).Roomy := by
  dsimp only [Engine.sampleFlags]
  repeat' first
    | with_reducible exact h | split | with_reducible apply Roomy.updDrive

theorem Engine.Roomy.sampleChange (h : e.Roomy) (d : Drive) (l : Lines) : (e.sampleChange x d l).Roomy := by
  dsimp only [Engine.sampleChange]
  repeat' first
    | with_reducible exact h | split | with_reducible apply Roomy.changeDrive
    | with_reducible apply Roomy.mediumChange

theorem Engine.Roomy.selectionSample (h : e.Roomy) (d : Drive) : (e.selectionSample x d).Roomy := by
  dsimp only [Engine.selectionSample]
  repeat' first
    | with_reducible exact h | split | with_reducible apply Roomy.sampleChange
    | with_reducible apply Roomy.sampleReady | with_reducible apply Roomy.sampleFlags

theorem Engine.Roomy.select (h : e.Roomy) (c : Side) (p : PairId) (survey : Bool) :
    (e.select x c p survey).Roomy := by
  dsimp only [Engine.select]
  repeat' first
    | with_reducible exact h | split | with_reducible apply Roomy.updChan | with_reducible apply Roomy.setTimer
    | with_reducible apply Roomy.setDrive | with_reducible apply Roomy.selectionSample

theorem Engine.Roomy.speedFault (h : e.Roomy) (d : Drive) : (e.speedFault x d).Roomy := by
  dsimp only [Engine.speedFault]
  repeat' first
    | with_reducible exact h | split | with_reducible apply Roomy.setState
    | with_reducible apply Roomy.leaveReady

theorem Engine.Roomy.judgePeriod (h : e.Roomy) (d : Drive) (n : Nat) : (e.judgePeriod x d n).Roomy := by
  dsimp only [Engine.judgePeriod]
  repeat' first
    | with_reducible exact h | split | with_reducible apply Roomy.setDrive
    | with_reducible apply Roomy.speedFault | with_reducible apply Roomy.setState

theorem Engine.Roomy.countPulse (h : e.Roomy) (d : Drive) (elapsed : Nat) : (e.countPulse x d elapsed).Roomy := by
  dsimp only [Engine.countPulse]
  repeat' first
    | with_reducible exact h | split | with_reducible apply Roomy.setDrive
    | with_reducible apply Roomy.judgePeriod

/-! ### Positioning (R107 to R113) -/

theorem Engine.Roomy.setAct (h : e.Roomy) (c : Side) (v : Act) : (e.setAct c v).Roomy := h.same rfl rfl le_rfl

theorem Engine.Roomy.updPositioning (h : e.Roomy) (c : Side) (f : Positioning → Positioning) :
    (e.updPositioning c f).Roomy := h.same rfl rfl le_rfl

theorem Engine.Roomy.updRun (h : e.Roomy) (c : Side) (f : Run → Run) : (e.updRun c f).Roomy := h.same rfl rfl le_rfl

theorem Engine.Roomy.failPositioning (h : e.Roomy) (c : Side) (code : FinishCode) :
    (e.failPositioning x c code).Roomy := by
  dsimp only [Engine.failPositioning]
  repeat' first
    | with_reducible exact h | split | with_reducible apply Roomy.holdFailure
    | with_reducible apply Roomy.failSide

theorem Engine.Roomy.beginConfirm (h : e.Roomy) (c : Side) : (e.beginConfirm c).Roomy := h.same rfl rfl le_rfl

theorem Engine.Roomy.settled (h : e.Roomy) (c : Side) : (e.settled x c).Roomy := by
  dsimp only [Engine.settled]
  repeat' first
    | with_reducible exact h | split | with_reducible apply Roomy.beginConfirm
    | with_reducible apply Roomy.updChan | with_reducible apply Roomy.setAct
    | with_reducible apply Roomy.release

theorem Engine.Roomy.arrived (h : e.Roomy) (c : Side) : (e.arrived x c).Roomy := by
  dsimp only [Engine.arrived]
  repeat' first
    | with_reducible exact h | split | with_reducible apply Roomy.setAct | with_reducible apply Roomy.settled

theorem Engine.Roomy.beginSeek (h : e.Roomy) (c : Side) : (e.beginSeek x c).Roomy := by
  dsimp only [Engine.beginSeek]
  repeat' first
    | with_reducible exact h | split | with_reducible apply Roomy.arrived | with_reducible apply Roomy.updChan

theorem Engine.Roomy.sampleTrack0 (h : e.Roomy) (d : Drive) (level : Bool) : (e.sampleTrack0 x d level).Roomy := by
  dsimp only [Engine.sampleTrack0]
  repeat' first
    | with_reducible exact h | split | with_reducible apply Roomy.changeDrive

theorem Engine.Roomy.atTrack0 (h : e.Roomy) (d : Drive) : (e.atTrack0 x d).Roomy := by
  dsimp only [Engine.atTrack0]
  repeat' first
    | with_reducible exact h | split | with_reducible apply Roomy.updDrive

theorem Engine.Roomy.beginRecalibrate (h : e.Roomy) (c : Side) : (e.beginRecalibrate x c).Roomy := by
  dsimp only [Engine.beginRecalibrate]
  repeat' first
    | with_reducible exact h | split | with_reducible apply Roomy.updDrive | with_reducible apply Roomy.updChan
    | with_reducible apply Roomy.sampleTrack0 | with_reducible apply Roomy.atTrack0
    | with_reducible apply Roomy.beginSeek

theorem Engine.Roomy.startPositioning (h : e.Roomy) (c : Side) (why : PosWhy) (target surface : Nat) (forced : Bool) :
    (e.startPositioning x c why target surface forced).Roomy := by
  dsimp only [Engine.startPositioning]
  repeat' first
    | with_reducible exact h | split | with_reducible apply Roomy.updChan
    | with_reducible apply Roomy.beginRecalibrate | with_reducible apply Roomy.beginSeek

theorem Engine.Roomy.recalibrateStep (h : e.Roomy) (c : Side) (d : Drive) (level : Bool) :
    (e.recalibrateStep x c d level).Roomy := by
  dsimp only [Engine.recalibrateStep]
  repeat' first
    | with_reducible exact h | split | with_reducible apply Roomy.sampleTrack0
    | with_reducible apply Roomy.atTrack0 | with_reducible apply Roomy.setAct
    | with_reducible apply Roomy.tryClean | with_reducible apply Roomy.beginSeek
    | with_reducible apply Roomy.failPositioning | with_reducible apply Roomy.updPositioning

theorem Engine.Roomy.seekStep (h : e.Roomy) (c : Side) (d : Drive) : (e.seekStep x c d).Roomy := by
  dsimp only [Engine.seekStep]
  repeat' first
    | with_reducible exact h | split | with_reducible apply Roomy.changeDrive
    | with_reducible apply Roomy.setAct | with_reducible apply Roomy.tryClean
    | with_reducible apply Roomy.beginSeek

theorem Engine.Roomy.stepEnd (h : e.Roomy) (c : Side) (trk0 : Bool) : (e.stepEnd x c trk0).Roomy := by
  dsimp only [Engine.stepEnd]
  repeat' first
    | with_reducible exact h | split | with_reducible apply Roomy.recalibrateStep
    | with_reducible apply Roomy.seekStep

theorem Engine.Roomy.settleEnd (h : e.Roomy) (c : Side) : (e.settleEnd x c).Roomy := by
  dsimp only [Engine.settleEnd]
  repeat' first
    | with_reducible exact h | split | with_reducible apply Roomy.settled

theorem Engine.Roomy.loadEnd (h : e.Roomy) (c : Side) : (e.loadEnd x c).Roomy := by
  dsimp only [Engine.loadEnd]
  repeat' first
    | with_reducible exact h | split | with_reducible apply Roomy.updDrive
    | with_reducible apply Roomy.beginConfirm

theorem Engine.Roomy.confirmDiffers (h : e.Roomy) (c : Side) : (e.confirmDiffers x c).Roomy := by
  dsimp only [Engine.confirmDiffers]
  repeat' first
    | with_reducible exact h | split | with_reducible apply Roomy.setAct | with_reducible apply Roomy.updDrive
    | with_reducible apply Roomy.failPositioning | with_reducible apply Roomy.updPositioning
    | with_reducible apply Roomy.beginRecalibrate

/-! ### Tracks and their sectors (R76, R126 to R140) -/

theorem Engine.Roomy.updItem (h : e.Roomy) (c : Side) (pos : Nat) (f : Item → Item) :
    (e.updItem c pos f).Roomy := h.same rfl rfl le_rfl

theorem Engine.Roomy.searchAnew (h : e.Roomy) (c : Side) : (e.searchAnew c).Roomy := h.same rfl rfl le_rfl

theorem Engine.Roomy.fillBuffer (h : e.Roomy) (c : Side) (b : Side) : (e.fillBuffer x c b).Roomy := by
  dsimp only [Engine.fillBuffer]
  repeat' first
    | with_reducible exact h | split | with_reducible apply Roomy.setChan

theorem Engine.Roomy.fillBuffers (h : e.Roomy) (c : Side) : (e.fillBuffers x c).Roomy := by
  dsimp only [Engine.fillBuffers]
  repeat' first
    | with_reducible exact h | split | with_reducible apply Roomy.fillBuffer

theorem Engine.Roomy.countRetry (h : e.Roomy) (slot : Nat) : (e.countRetry slot).Roomy :=
  h.updOrder _ fun _ => rfl

theorem Engine.Roomy.countMissed (h : e.Roomy) (slot : Nat) : (e.countMissed slot).Roomy :=
  h.updOrder _ fun _ => rfl

theorem Engine.Roomy.countRetired (h : e.Roomy) (slot : Nat) : (e.countRetired slot).Roomy :=
  h.updOrder _ fun _ => rfl

theorem Engine.Roomy.countDone (h : e.Roomy) (slot : Nat) : (e.countDone slot).Roomy :=
  h.updOrder _ fun _ => rfl

theorem Engine.Roomy.mark (h : e.Roomy) (slot : Nat) (c : Side) (pos : Nat) (v : Entry) :
    (e.mark slot c pos v).Roomy :=
  h.updOrder _ fun _ => rfl

theorem Engine.Roomy.sectorDone (h : e.Roomy) (o : Order) (c : Side) (pos : Nat) :
    (e.sectorDone x o c pos).Roomy := by
  dsimp only [Engine.sectorDone]
  repeat' first
    | with_reducible exact h | split | with_reducible apply Roomy.mark | with_reducible apply Roomy.resolve
    | with_reducible apply Roomy.countDone

theorem Engine.Roomy.formatDone (h : e.Roomy) (c : Side) (o : Order) (pos : Nat) :
    (e.formatDone c o pos).Roomy := by
  dsimp only [Engine.formatDone]
  repeat' first
    | with_reducible exact h | split | with_reducible apply Roomy.countDone | with_reducible apply Roomy.mark

theorem Engine.Roomy.enterTrack (h : e.Roomy) (c : Side) (o : Order) (track : Nat) :
    (e.enterTrack x c o track).Roomy := by
  dsimp only [Engine.enterTrack]
  repeat' first
    | with_reducible exact h | split | with_reducible apply Roomy.updChan
    | with_reducible apply Roomy.fillBuffers

theorem Engine.Roomy.goToTrack (h : e.Roomy) (c : Side) (o : Order) (track : Nat) (why : PosWhy) (forced : Bool) :
    (e.goToTrack x c o track why forced).Roomy := by
  dsimp only [Engine.goToTrack]
  repeat' first
    | with_reducible exact h | split | with_reducible apply Roomy.enter
    | with_reducible apply Roomy.startPositioning

theorem Engine.Roomy.recover (h : e.Roomy) (c : Side) (o : Order) : (e.recover x c o).Roomy := by
  dsimp only [Engine.recover]
  repeat' first
    | with_reducible exact h | split | with_reducible apply Roomy.goToTrack

theorem Engine.Roomy.formatFailed (h : e.Roomy) (c : Side) (o : Order) : (e.formatFailed x c o).Roomy := by
  dsimp only [Engine.formatFailed]
  repeat' first
    | with_reducible exact h | split | with_reducible apply Roomy.setAct | with_reducible apply Roomy.mark
    | with_reducible apply Roomy.resolveAll | with_reducible apply Roomy.setPending
    | (apply Roomy.foldl; intro e i h)

theorem Engine.Roomy.formatVerified (h : e.Roomy) (c : Side) (o : Order) : (e.formatVerified x c o).1.Roomy := by
  dsimp only [Engine.formatVerified]
  repeat' first
    | with_reducible exact h | split | with_reducible apply Roomy.updRun | with_reducible apply Roomy.recover
    | with_reducible apply Roomy.countRetry | with_reducible apply Roomy.enter
    | with_reducible apply Roomy.setAct | with_reducible apply Roomy.formatFailed
    | with_reducible apply Roomy.resolveAll

theorem Engine.Roomy.leaveTrack (h : e.Roomy) (c : Side) (o : Order) : (e.leaveTrack x c o).Roomy := by
  dsimp only [Engine.leaveTrack]
  repeat' first
    | with_reducible exact h | split | with_reducible apply Roomy.enter | with_reducible apply Roomy.release
    | with_reducible apply Roomy.updChan | with_reducible apply Roomy.failSide
    | with_reducible apply Roomy.enterTrack | with_reducible apply Roomy.goToTrack

theorem Engine.Roomy.enterVerify (h : e.Roomy) (c : Side) : (e.enterVerify x c).Roomy := by
  dsimp only [Engine.enterVerify]
  repeat' first
    | with_reducible exact h | split | with_reducible apply Roomy.enter | with_reducible apply Roomy.updChan
    | with_reducible apply Roomy.searchAnew

theorem Engine.Roomy.backToTrack (h : e.Roomy) (c : Side) : (e.backToTrack x c).Roomy := by
  dsimp only [Engine.backToTrack]
  repeat' first
    | with_reducible exact h | split | with_reducible apply Roomy.enter | with_reducible apply Roomy.updChan
    | with_reducible apply Roomy.searchAnew

theorem Engine.Roomy.passEnd (h : e.Roomy) (c : Side) (o : Order) : (e.passEnd x c o).Roomy := by
  have k := h.formatVerified (x := x) c o
  dsimp only [Engine.passEnd]
  repeat' first
    | with_reducible exact h
    | split
    | with_reducible apply Roomy.enterVerify
    | with_reducible apply Roomy.leaveTrack
    | with_reducible apply Roomy.stopOrder
    | with_reducible apply Roomy.backToTrack
  all_goals (rename_i heq; rw [heq] at k)
  · exact k.release _
  · exact k

theorem Engine.Roomy.goOn (n : Nat) (c : Side) : ∀ {e : Engine}, e.Roomy → (Engine.goOn x n e c).Roomy := by
  induction n with
  | zero => exact fun h => h
  | succ n ih =>
    intro e h
    dsimp only [Engine.goOn]
    repeat' first
      | with_reducible exact h
      | split
      | with_reducible apply Roomy.tryClean
      | with_reducible apply ih
      | with_reducible apply Roomy.passEnd

theorem Engine.Roomy.carryOn (h : e.Roomy) (c : Side) : (e.carryOn x c).Roomy := Roomy.goOn 8 c h

theorem Engine.Roomy.startSide (h : e.Roomy) (c : Side) (o : Order) : (e.startSide x c o).Roomy := by
  dsimp only [Engine.startSide]
  repeat' first
    | with_reducible exact h | split | with_reducible apply Roomy.enter | with_reducible apply Roomy.failSide
    | with_reducible apply Roomy.updRun | with_reducible apply Roomy.enterTrack
    | with_reducible apply Roomy.carryOn

theorem Engine.Roomy.resume (h : e.Roomy) (c : Side) (o : Order) : (e.resume x c o).Roomy := by
  dsimp only [Engine.resume]
  repeat' first
    | with_reducible exact h | split | with_reducible apply Roomy.countRetry | with_reducible apply Roomy.enter
    | with_reducible apply Roomy.setAct | with_reducible apply Roomy.searchAnew
    | with_reducible apply Roomy.fillBuffers | with_reducible apply Roomy.carryOn

theorem Engine.Roomy.confirmed (h : e.Roomy) (c : Side) : (e.confirmed x c).Roomy := by
  dsimp only [Engine.confirmed]
  repeat' first
    | with_reducible exact h | split | with_reducible apply Roomy.enter | with_reducible apply Roomy.setAct
    | with_reducible apply Roomy.startSide | with_reducible apply Roomy.failSide
    | with_reducible apply Roomy.enterTrack | with_reducible apply Roomy.carryOn
    | with_reducible apply Roomy.recover | with_reducible apply Roomy.resume

theorem Engine.Roomy.sectorFailed (h : e.Roomy) (c : Side) (o : Order) (it : Item) (code : FinishCode) :
    (e.sectorFailed x c o it code).Roomy := by
  dsimp only [Engine.sectorFailed]
  repeat' first
    | with_reducible exact h | split | with_reducible apply Roomy.updItem | with_reducible apply Roomy.updChan
    | with_reducible apply Roomy.setPending | with_reducible apply Roomy.mark
    | with_reducible apply Roomy.resolve | with_reducible apply Roomy.fillBuffers

theorem Engine.Roomy.readAgain (h : e.Roomy) (c : Side) (sector : Nat) :
    (e.readAgain c sector).Roomy := h.same rfl rfl le_rfl

theorem Engine.Roomy.attemptFailed (h : e.Roomy) (c : Side) (o : Order) (it : Item) (code : FinishCode) :
    (e.attemptFailed x c o it code).Roomy := by
  dsimp only [Engine.attemptFailed]
  repeat' first
    | with_reducible exact h | split | with_reducible apply Roomy.setAct | with_reducible apply Roomy.mark
    | with_reducible apply Roomy.updItem | with_reducible apply Roomy.carryOn
    | with_reducible apply Roomy.tryClean | with_reducible apply Roomy.readAgain
    | with_reducible apply Roomy.recover | with_reducible apply Roomy.countRetry
    | with_reducible apply Roomy.fillBuffers | with_reducible apply Roomy.sectorFailed

theorem Engine.Roomy.noteBadId (h : e.Roomy) (c : Side) (k : Kind) :
    (e.noteBadId c k).Roomy := h.same rfl rfl le_rfl

theorem Engine.Roomy.keepId (h : e.Roomy) (c : Side) (d : Drive) (id : IdRead) : (e.keepId c d id).Roomy := by
  dsimp only [Engine.keepId]
  repeat' first
    | with_reducible exact h | split | with_reducible apply Roomy.setDrive | with_reducible apply Roomy.updRun

theorem Engine.Roomy.keepFirst (h : e.Roomy) (c : Side) (id : IdRead) : (e.keepFirst c id).Roomy := by
  dsimp only [Engine.keepFirst]
  repeat' first
    | with_reducible exact h | split | with_reducible apply Roomy.recover | with_reducible apply Roomy.updRun

theorem Engine.Roomy.beginWrite (h : e.Roomy) (c : Side) (o : Order) (it : Item) (buf : Option Side) (mark : Byte)
    (data : List Byte) :
    (e.beginWrite x c o it buf mark data).Roomy := by
  dsimp only [Engine.beginWrite]
  repeat' first
    | with_reducible exact h | split | with_reducible apply Roomy.updItem | with_reducible apply Roomy.updChan

theorem Engine.Roomy.passOver (h : e.Roomy) (c : Side) (o : Order) (it : Item) : (e.passOver c o it).Roomy := by
  dsimp only [Engine.passOver]
  repeat' first
    | with_reducible exact h | split | with_reducible apply Roomy.countMissed
    | with_reducible apply Roomy.updItem

theorem Engine.Roomy.beginRead (h : e.Roomy) (c : Side) (o : Order) (it : Item) : (e.beginRead c o it).Roomy := by
  dsimp only [Engine.beginRead]
  repeat' first
    | with_reducible exact h | split | with_reducible apply Roomy.passOver | with_reducible apply Roomy.updItem
    | with_reducible apply Roomy.searchAnew | with_reducible apply Roomy.updChan

theorem Engine.Roomy.arriveWrite (h : e.Roomy) (c : Side) (o : Order) (it : Item) :
    (e.arriveWrite x c o it).Roomy := by
  dsimp only [Engine.arriveWrite]
  repeat' first
    | with_reducible exact h | split | with_reducible apply Roomy.beginWrite
    | with_reducible apply Roomy.passOver

theorem Engine.Roomy.arrive (h : e.Roomy) (c : Side) (o : Order) (it : Item) (id : IdRead) :
    (e.arrive x c o it id).Roomy := by
  dsimp only [Engine.arrive]
  repeat' first
    | with_reducible exact h | split | with_reducible apply Roomy.attemptFailed
    | with_reducible apply Roomy.beginRead | with_reducible apply Roomy.arriveWrite
    | with_reducible apply Roomy.updItem | with_reducible apply Roomy.carryOn
    | with_reducible apply Roomy.passOver

theorem Engine.Roomy.idInPass (h : e.Roomy) (c : Side) (o : Order) (id : IdRead) : (e.idInPass x c o id).Roomy := by
  dsimp only [Engine.idInPass]
  repeat' first
    | with_reducible exact h | split | with_reducible apply Roomy.setAct | with_reducible apply Roomy.failSide
    | with_reducible apply Roomy.updRun | with_reducible apply Roomy.fillBuffers
    | with_reducible apply Roomy.arrive

theorem Engine.Roomy.readFailed (h : e.Roomy) (c : Side) (pos : Nat) (buf : Side) :
    (e.readFailed x c pos buf).Roomy := by
  dsimp only [Engine.readFailed]
  repeat' first
    | with_reducible exact h | split | with_reducible apply Roomy.updChan
    | with_reducible apply Roomy.attemptFailed | with_reducible apply Roomy.setAct
    | with_reducible apply Roomy.tryClean

theorem Engine.Roomy.noMarkBeforeId (h : e.Roomy) (c : Side) : (e.noMarkBeforeId x c).Roomy := by
  dsimp only [Engine.noMarkBeforeId]
  repeat' first
    | with_reducible exact h | split | with_reducible apply Roomy.readFailed

theorem Engine.Roomy.judgeId (h : e.Roomy) (c : Side) (bytes : List Byte) : (e.judgeId x c bytes).Roomy := by
  dsimp only [Engine.judgeId]
  repeat' first
    | with_reducible exact h | split | with_reducible apply Roomy.noteBadId
    | with_reducible apply Roomy.keepFirst | with_reducible apply Roomy.confirmed
    | with_reducible apply Roomy.confirmDiffers | with_reducible apply Roomy.idInPass

theorem Engine.Roomy.idPasses (h : e.Roomy) (c : Side) (bytes : List Byte) : (e.idPasses x c bytes).Roomy := by
  dsimp only [Engine.idPasses]
  repeat' first
    | with_reducible exact h | split | with_reducible apply Roomy.noMarkBeforeId
    | with_reducible apply Roomy.keepId | with_reducible apply Roomy.judgeId

theorem Engine.Roomy.idField (h : e.Roomy) (c : Side) (f : FieldRead) : (e.idField x c f).Roomy := by
  dsimp only [Engine.idField]
  repeat' first
    | with_reducible exact h | split | with_reducible apply Roomy.idPasses

theorem Engine.Roomy.takeRead (h : e.Roomy) (c : Side) (o : Order) (pos : Nat) (buf : Side) :
    (e.takeRead x c o pos buf).Roomy := by
  dsimp only [Engine.takeRead]
  repeat' first
    | with_reducible exact h | split | with_reducible apply Roomy.mark | with_reducible apply Roomy.updItem
    | with_reducible apply Roomy.updChan | with_reducible apply Roomy.updOrder | exact fun _ => rfl

theorem Engine.Roomy.takeSkipped (h : e.Roomy) (c : Side) (o : Order) (pos : Nat) (buf : Side) :
    (e.takeSkipped c o pos buf).Roomy := by
  dsimp only [Engine.takeSkipped]
  repeat' first
    | with_reducible exact h | split | with_reducible apply Roomy.mark | with_reducible apply Roomy.updItem
    | with_reducible apply Roomy.updChan | with_reducible apply Roomy.countDone

theorem Engine.Roomy.takeChecked (h : e.Roomy) (c : Side) (o : Order) (pos : Nat) (buf : Side) :
    (e.takeChecked x c o pos buf).Roomy := by
  dsimp only [Engine.takeChecked]
  repeat' first
    | with_reducible exact h | split | with_reducible apply Roomy.updItem | with_reducible apply Roomy.updChan
    | with_reducible apply Roomy.sectorDone

theorem Engine.Roomy.takeRetiredStop (h : e.Roomy) (c : Side) (o : Order) (pos : Nat) (buf : Side) :
    (e.takeRetiredStop x c o pos buf).Roomy := by
  dsimp only [Engine.takeRetiredStop]
  repeat' first
    | with_reducible exact h | split | with_reducible apply Roomy.updItem | with_reducible apply Roomy.updChan
    | with_reducible apply Roomy.mark | with_reducible apply Roomy.setPending

theorem Engine.Roomy.takeGood (h : e.Roomy) (c : Side) (o : Order) (pos : Nat) (buf : Side) (retired : Bool) :
    (e.takeGood x c o pos buf retired).Roomy := by
  dsimp only [Engine.takeGood]
  repeat' first
    | with_reducible exact h | split | with_reducible apply Roomy.countRetired
    | with_reducible apply Roomy.takeRetiredStop | with_reducible apply Roomy.takeChecked
    | with_reducible apply Roomy.takeSkipped | with_reducible apply Roomy.takeRead

theorem Engine.Roomy.sectorMended (h : e.Roomy) (c : Side) (o : Order) (it : Item) :
    (e.sectorMended x c o it).Roomy := by
  dsimp only [Engine.sectorMended]
  repeat' first
    | with_reducible exact h | split | with_reducible apply Roomy.logRemove
    | with_reducible apply Roomy.countDone

theorem Engine.Roomy.readBack (h : e.Roomy) (c : Side) (o : Order) (it : Item) : (e.readBack x c o it).Roomy := by
  dsimp only [Engine.readBack]
  repeat' first
    | with_reducible exact h | split | with_reducible apply Roomy.updItem
    | with_reducible apply Roomy.sectorMended | with_reducible apply Roomy.formatDone
    | with_reducible apply Roomy.sectorDone

theorem Engine.Roomy.readOver (h : e.Roomy) (c : Side) : (e.readOver x c).Roomy := by
  dsimp only [Engine.readOver]
  repeat' first
    | with_reducible exact h | split | with_reducible apply Roomy.setAct | with_reducible apply Roomy.carryOn

theorem Engine.Roomy.judgeData (h : e.Roomy) (c : Side) (o : Order) (it : Item) (buf : Side) (bytes : List Byte) :
    (e.judgeData x c o it buf bytes).Roomy := by
  dsimp only [Engine.judgeData]
  repeat' first
    | with_reducible exact h | split | with_reducible apply Roomy.updChan
    | with_reducible apply Roomy.attemptFailed | with_reducible apply Roomy.mark
    | with_reducible apply Roomy.readBack | with_reducible apply Roomy.carryOn
    | with_reducible apply Roomy.updItem | with_reducible apply Roomy.setAct
    | with_reducible apply Roomy.takeGood | with_reducible apply Roomy.readOver

theorem Engine.Roomy.dataField (h : e.Roomy) (c : Side) (f : FieldRead) : (e.dataField x c f).Roomy := by
  dsimp only [Engine.dataField]
  repeat' first
    | with_reducible exact h | split | with_reducible apply Roomy.judgeData

theorem Engine.Roomy.dataWritten (h : e.Roomy) (c : Side) : (e.dataWritten x c).Roomy := by
  dsimp only [Engine.dataWritten]
  repeat' first
    | with_reducible exact h | split | with_reducible apply Roomy.updChan | with_reducible apply Roomy.tryClean
    | with_reducible apply Roomy.setBack | with_reducible apply Roomy.updItem | with_reducible apply Roomy.mark
    | with_reducible apply Roomy.setAct | with_reducible apply Roomy.sectorDone
    | with_reducible apply Roomy.fillBuffers | with_reducible apply Roomy.carryOn

theorem Engine.Roomy.copied (h : e.Roomy) (c : Side) (t : Transfer) : (e.copied x c t).Roomy := by
  dsimp only [Engine.copied]
  repeat' first
    | with_reducible exact h | split | with_reducible apply Roomy.updChan | with_reducible apply Roomy.tryClean
    | with_reducible apply Roomy.mark | with_reducible apply Roomy.countDone
    | with_reducible apply Roomy.updItem | with_reducible apply Roomy.carryOn

theorem Engine.Roomy.fetched (h : e.Roomy) (c : Side) (t : Transfer) (data : List Byte) :
    (e.fetched x c t data).Roomy := by
  dsimp only [Engine.fetched]
  repeat' first
    | with_reducible exact h | split | with_reducible apply Roomy.updChan
    | with_reducible apply Roomy.fillBuffers

theorem Engine.Roomy.bufferError (h : e.Roomy) (c : Side) (t : Transfer) : (e.bufferError x c t).Roomy := by
  dsimp only [Engine.bufferError]
  repeat' first
    | with_reducible exact h | split | with_reducible apply Roomy.updChan | with_reducible apply Roomy.tryClean
    | with_reducible apply Roomy.mark | with_reducible apply Roomy.updItem
    | with_reducible apply Roomy.setPending

theorem Engine.Roomy.passAcross (h : e.Roomy) (c : Side) : (e.passAcross x c).Roomy := by
  dsimp only [Engine.passAcross]
  repeat' first
    | with_reducible exact h | split | with_reducible apply Roomy.updChan | with_reducible apply Roomy.updItem
    | with_reducible apply Roomy.carryOn

theorem Engine.Roomy.searchTimeout (h : e.Roomy) (c : Side) (sector : Nat) :
    (e.searchTimeout x c sector).Roomy := by
  dsimp only [Engine.searchTimeout]
  repeat' first
    | with_reducible exact h | split | with_reducible apply Roomy.attemptFailed

theorem Engine.Roomy.pulseSearches (h : e.Roomy) (c : Side) (k : Kind) (busy : Option Nat) :
    (e.pulseSearches c k busy).Roomy := h.same rfl rfl le_rfl

theorem Engine.Roomy.beginFormat (h : e.Roomy) (c : Side) (o : Order) : (e.beginFormat x c o).Roomy := by
  dsimp only [Engine.beginFormat]
  split
  · exact (h.updOrder o.slot (f := (Order.reopenFormat · c)) fun _ => rfl).updChan c _
  · exact h

theorem Engine.Roomy.endFormat (h : e.Roomy) (c : Side) (o : Order) : (e.endFormat x c o).Roomy := by
  dsimp only [Engine.endFormat]
  repeat' first
    | with_reducible exact h | split | with_reducible apply Roomy.setBack | with_reducible apply Roomy.updChan
    | with_reducible apply Roomy.mark | with_reducible apply Roomy.formatDone
    | with_reducible apply Roomy.release | with_reducible apply Roomy.enterVerify
    | with_reducible apply Roomy.resolveAll | (apply Roomy.foldl; intro e i h)

theorem Engine.Roomy.trySurveyEnd (h : e.Roomy) (c : Side) : (e.trySurveyEnd x c).Roomy := by
  dsimp only [Engine.trySurveyEnd]
  repeat' first
    | with_reducible exact h | split | with_reducible apply Roomy.endSurveyStep

theorem Engine.Roomy.channelPulse (h : e.Roomy) (c : Side) (elapsed : Nat) :
    (e.channelPulse x c elapsed).Roomy := by
  dsimp only [Engine.channelPulse]
  repeat' first
    | with_reducible exact h | split | with_reducible apply Roomy.setAct
    | with_reducible apply Roomy.trySurveyEnd | with_reducible apply Roomy.confirmed
    | with_reducible apply Roomy.beginFormat | with_reducible apply Roomy.endFormat
    | with_reducible apply Roomy.pulseSearches | with_reducible apply Roomy.readFailed

theorem Engine.Roomy.indexPulse (h : e.Roomy) (c : Side) (elapsed : Nat) : (e.indexPulse x c elapsed).Roomy := by
  dsimp only [Engine.indexPulse]
  repeat' first
    | with_reducible exact h | split | with_reducible apply Roomy.countPulse
    | with_reducible apply Roomy.channelPulse

theorem Engine.Roomy.finalFillEnd (h : e.Roomy) (c : Side) : (e.finalFillEnd x c).Roomy := by
  dsimp only [Engine.finalFillEnd]
  repeat' first
    | with_reducible exact h | split | with_reducible apply Roomy.endFormat

/-! ### Choices and the begin of a run (R32, R48, R64, R104) -/

theorem Engine.Roomy.noteRoom (h : e.Roomy) (c : Side) (slot : Nat) : (e.noteRoom x c slot).Roomy := by
  dsimp only [Engine.noteRoom]
  repeat' first
    | with_reducible exact h | split | with_reducible apply Roomy.updOrder
    | with_reducible apply Roomy.setAttention | exact fun _ => rfl

theorem Engine.Roomy.noteRooms (h : e.Roomy) (c : Side) : (e.noteRooms x c).Roomy := by
  dsimp only [Engine.noteRooms]
  repeat' first
    | with_reducible exact h | split | with_reducible apply Roomy.noteRoom | (apply Roomy.foldl; intro e i h)

theorem Engine.Roomy.choose (h : e.Roomy) (c : Side) : (e.choose x c).Roomy := by
  dsimp only [Engine.choose]
  split
  · exact h.noteRooms _
  · exact (h.noteRooms _).same rfl rfl le_rfl

theorem Engine.Roomy.bind (h : e.Roomy) (c : Side) (slot : Nat) : (e.bind c slot).Roomy := h.same rfl rfl le_rfl

theorem Engine.Roomy.unbind (h : e.Roomy) (c : Side) : (e.unbind c).Roomy := h.same rfl rfl le_rfl

theorem Engine.Roomy.markServed (h : e.Roomy) (slot : Nat) (c : Side) :
    (e.markServed slot c).Roomy :=
  h.updOrder _ fun _ => rfl

theorem Engine.Roomy.beginPositioning (h : e.Roomy) (c : Side) : (e.beginPositioning x c).Roomy := by
  dsimp only [Engine.beginPositioning]
  repeat' first
    | with_reducible exact h | split | with_reducible apply Roomy.enter | with_reducible apply Roomy.select
    | with_reducible apply Roomy.setAct | with_reducible apply Roomy.release
    | with_reducible apply Roomy.failSide | with_reducible apply Roomy.markServed
    | with_reducible apply Roomy.updChan | with_reducible apply Roomy.startPositioning

theorem Engine.Roomy.beginPartnerWait (h : e.Roomy) (c : Side) : (e.beginPartnerWait x c).Roomy := by
  dsimp only [Engine.beginPartnerWait]
  repeat' first
    | with_reducible exact h | split | with_reducible apply Roomy.enter | with_reducible apply Roomy.select
    | with_reducible apply Roomy.setAct | with_reducible apply Roomy.tryClean
    | with_reducible apply Roomy.holdFailure | with_reducible apply Roomy.updChan
    | with_reducible apply Roomy.startPositioning

theorem Engine.Roomy.beginStep (h : e.Roomy) (c : Side) : (e.beginStep x c).Roomy := by
  dsimp only [Engine.beginStep]
  repeat' first
    | with_reducible exact h | split | with_reducible apply Roomy.enter | with_reducible apply Roomy.select
    | with_reducible apply Roomy.setAct | with_reducible apply Roomy.endSurveyStep

theorem Engine.Roomy.start (h : e.Roomy) (c : Side) (b : Begin) : (e.start x c b).Roomy := by
  dsimp only [Engine.start]
  repeat' first
    | with_reducible exact h | split | with_reducible apply Roomy.beginPositioning
    | with_reducible apply Roomy.beginPartnerWait | with_reducible apply Roomy.beginStep

theorem Engine.Roomy.startOrDefer (h : e.Roomy) (c : Side) (b : Begin) : (e.startOrDefer x c b).Roomy := by
  dsimp only [Engine.startOrDefer]
  repeat' first
    | with_reducible exact h | split | with_reducible apply Roomy.updChan | with_reducible apply Roomy.start

theorem Engine.Roomy.setTurn (h : e.Roomy) (o : Order) (t : Turn) : (e.setTurn o t).Roomy :=
  h.updOrder _ fun _ => rfl

theorem Engine.Roomy.leaveOut (h : e.Roomy) (slot : Nat) (c : Side) : (e.leaveOut x slot c).Roomy := by
  dsimp only [Engine.leaveOut]
  repeat' first
    | with_reducible exact h | split | with_reducible apply Roomy.updOrder
    | with_reducible apply Roomy.resolveAll | exact fun _ => rfl

theorem Engine.Roomy.startIfHeld (h : e.Roomy) (c : Side) (slot : Nat) : (e.startIfHeld x c slot).Roomy := by
  dsimp only [Engine.startIfHeld]
  repeat' first
    | with_reducible exact h | split | with_reducible apply Roomy.startOrDefer

/-! ### The grants (R36, R48 to R50, R63) -/

/-- The record of an order that a grant has planned, with the reservation it takes. -/
def Order.planned (x : Front) (e : Engine) (o : Order) (f : Order → Order) (o' : Order) : Order :=
  { f o' with
    mirrored := o.fields.pairCopy && o.kind != .mend && e.attached o
    resolved := List.replicate (o.sectorCount x) false
    reservation := if e.roomNeed x o = 0 then (f o').reservation else e.roomNeed x o }

/-- The reserved total is written where an order has taken entries (R63). -/
def Engine.writeTaken (x : Front) (e : Engine) (n : Nat) : Engine := if n = 0 then e else e.writeReserved x

/-- The plan and the reservation of a grant are one change of the order, and one of the reserved total. -/
theorem Engine.planRun_reserve (x : Front) (e : Engine) (o : Order) {f : Order → Order}
    (slots : ∀ o, (f o).slot = o.slot) :
    (e.planRun x o f).reserve x o.slot (e.roomNeed x o) =
      ({ e with reserved := e.reserved + e.roomNeed x o }.updOrder o.slot (o.planned x e f)).writeTaken x
        (e.roomNeed x o) := by
  by_cases hn : e.roomNeed x o = 0
  · simp only [Engine.reserve, Engine.writeTaken, Engine.planRun, Engine.updOrder, Order.planned, hn, if_true]
    rfl
  · simp only [Engine.reserve, Engine.writeTaken, Engine.planRun, hn, if_false]
    refine congrArg (Engine.writeReserved x) ?_
    refine (Engine.updOrder_updOrder { e with reserved := e.reserved + e.roomNeed x o } o.slot _ _ ?_).trans ?_
    · exact fun o => slots o
    · exact congrArg _ (funext fun o' => by simp only [Order.planned, hn, if_false])

theorem Order.planned_mirrored {x : Front} {e : Engine} {o o' : Order} {f : Order → Order}
    (k : (o.planned x e f o').mirrored = true) : o.fields.pairCopy = true ∧ e.attached o = true := by
  simp only [Order.planned, Bool.and_eq_true] at k
  exact ⟨k.1.1, k.2⟩

/-- A mirrored run that writes or checks needs an entry for each of its sectors (R36). -/
theorem Engine.roomNeed_of_mirrored {x : Front} {e : Engine} {o : Order} (pair : o.fields.pairCopy = true)
    (attached : e.attached o = true) (kind : o.kind.writes = true ∨ o.kind = .check) :
    e.roomNeed x o = o.sectorCount x := by
  have : o.needsRoom e = true := by
    simp only [Engine.attached, Bool.and_eq_true] at attached
    rcases kind with kind | kind <;> simp [Order.needsRoom, pair, attached, kind]
  rw [Engine.roomNeed, if_pos this]

theorem Engine.Roomy.writeTaken (h : e.Roomy) (n : Nat) : (e.writeTaken x n).Roomy := by
  unfold Engine.writeTaken
  split
  · exact h
  · exact h.writeReserved

/-- What a grant needs of its order: it is held, waits without a reservation, and the log has the room. -/
structure Engine.Grantable (x : Front) (e : Engine) (o : Order) : Prop where
  found : e.order? o.slot = some o
  waiting : o.reservation = 0
  open' : o.finish = none
  room : e.roomNeed x o ≤ e.freeEntries

/-- A grant keeps the room: it takes entries that are free (R36, R63). -/
theorem Engine.Roomy.granted (h : e.Roomy) {o : Order} (g : e.Grantable x o) {f : Order → Order}
    (slots : ∀ o, (f o).slot = o.slot) (state : (f o).state = .running ∨ (f o).state = .boundWait)
    (fields : (f o).fields = o.fields) (finish : (f o).finish = o.finish) (free : (f o).reservation = 0) :
    ((e.planRun x o f).reserve x o.slot (e.roomNeed x o)).Roomy := by
  have taken : (o.planned x e f o).reservation = e.roomNeed x o := by
    simp only [Order.planned, free]
    split <;> simp_all
  have room := h.room
  have fits := g.room
  simp only [Engine.freeEntries, Config.logCapacity] at fits
  rw [Engine.planRun_reserve x e o slots]
  refine Engine.Roomy.writeTaken (h.change (f := o.planned x e f) g.found (fun o => slots o)
    ⟨fun hr => ?_, fun _ hm hk => ?_⟩ rfl ?_ ?_) _
  · refine ⟨finish.trans g.open', state, fun hk => ?_⟩
    have hk : o.kind = .mend := (congrArg OrderFields.kind fields).symm.trans hk
    rw [taken] at hr
    simp [Engine.roomNeed, Order.needsRoom, hk, Kind.writes] at hr
  · have kind : (o.planned x e f o).kind = o.kind := congrArg OrderFields.kind fields
    rw [taken]
    obtain ⟨pair, attached⟩ := Order.planned_mirrored hm
    rw [Engine.roomNeed_of_mirrored pair attached (kind ▸ hk)]
    simp [Order.planned]
  · rw [taken, g.waiting]
    simp [Engine.updOrder]
  · simp only [Engine.updOrder]
    omega

/-- The order's record where a grant begins its run, and where the order waits for the other channel (R49, R50). -/
def Order.begun (plan : BySide Bool) (o : Order) : Order :=
  { o with state := .running, waiter := none, plan := plan, roomNote := false }

def Order.boundTo (c : Side) (o : Order) : Order :=
  { o with state := .boundWait, waiter := some c, plan := BySide.both true, roomNote := false }

theorem Engine.Roomy.run (h : e.Roomy) {o : Order} (g : e.Grantable x o) (plan : BySide Bool) :
    (e.run x o plan).Roomy :=
  (h.granted g (f := Order.begun plan) (fun _ => rfl) (.inl rfl) rfl rfl g.waiting).writePhase _ _ _

theorem Engine.Roomy.grantOne (h : e.Roomy) (c : Side) {o : Order} (g : e.Grantable x o) : (e.grantOne x c o).Roomy :=
  (((h.run g _).bind c _).leaveOut _ _).startOrDefer _ _

theorem Engine.Roomy.grantTwo (h : e.Roomy) (c : Side) {o : Order} (g : e.Grantable x o) :
    (e.grantTwo x c o).Roomy := by
  have bound := ((h.run g (BySide.both true)).bind c o.slot).bind c.other o.slot
  dsimp only [Engine.grantTwo]
  split
  · split
    · split
      · exact ((bound.unbind _).unbind _).decideFinish _ _ _
      · exact ((bound.setTurn _ _).startIfHeld _ _).startIfHeld _ _
    · exact (bound.startIfHeld _ _).startIfHeld _ _
  · have granted := h.granted g (f := Order.boundTo c) (fun _ => rfl) (.inr rfl) rfl rfl g.waiting
    exact (granted.bind _ _).startOrDefer _ _

/-- An order that waits has nothing reserved. -/
theorem Order.Covered.free_of_state {o : Order} (h : o.Covered) (running : o.state ≠ .running)
    (bound : o.state ≠ .boundWait) : o.reservation = 0 := by
  by_contra hr
  exact (h.granted hr).2.1.elim running bound

/-- What an eligible order has passed. -/
theorem Engine.eligible_iff (x : Front) (e : Engine) (o : Order) (c : Side) :
    e.eligible x o c = true ↔ o.state = .queued ∧ o.finish = none ∧ (e.planOf o).get c = true ∧
      e.planReady o = true ∧ e.unfenced x o = true ∧ e.roomNeed x o ≤ e.freeEntries := by
  simp only [Engine.eligible, Engine.passesButRoom, Engine.hasRoom, Bool.and_eq_true, beq_iff_eq,
    Option.isNone_iff_eq_none, decide_eq_true_eq, and_assoc]

theorem Engine.Roomy.grantable (h : e.Roomy) {slot : Nat} {o : Order} {c : Side} (ho : e.order? slot = some o)
    (k : e.eligible x o c = true) : e.Grantable x o := by
  obtain ⟨queued, finish, -, -, -, room⟩ := (e.eligible_iff x o c).mp k
  obtain ⟨mem, rfl⟩ := Engine.order?_mem ho
  exact ⟨ho, (h.covered o mem).free_of_state (by simp [queued]) (by simp [queued]), finish, room⟩

/-- An order that is eligible needs no room note (R64). -/
theorem Engine.noteRoom_of_eligible (x : Front) {e : Engine} {slot : Nat} {o : Order} {c : Side}
    (ho : e.order? slot = some o) (k : e.eligible x o c = true) : e.noteRoom x c slot = e := by
  have : e.hasRoom x o = true := (Bool.and_eq_true _ _ ▸ k).2
  simp [Engine.noteRoom, ho, this]

theorem Engine.Roomy.takeClaim (h : e.Roomy) (c : Side) : (e.takeClaim x c).Roomy := by
  unfold Engine.takeClaim
  split
  · exact h
  · have h := h.updChan c fun ch => { ch with claim := none }
    dsimp only
    split
    · split
      · exact h
      · rename_i o ho
        split
        · rename_i k
          rw [Engine.noteRoom_of_eligible x ho k]
          have g := h.grantable ho k
          split
          · exact h.grantTwo c g
          · exact h.grantOne c g
        · exact h.noteRoom _ _
    · exact h

/-! ### The takeover (R52) -/

theorem Engine.Roomy.joinWaiter (h : e.Roomy) (w : Side) (slot : Nat) : (e.joinWaiter x w slot).Roomy := by
  dsimp only [Engine.joinWaiter]
  repeat' first
    | with_reducible exact h | split | with_reducible apply Roomy.updChan | with_reducible apply Roomy.failSide
    | with_reducible apply Roomy.tryClean | with_reducible apply Roomy.startSide
    | with_reducible apply Roomy.release | with_reducible apply Roomy.goToTrack
    | with_reducible apply Roomy.enter | with_reducible apply Roomy.updPositioning
    | with_reducible apply Roomy.startPositioning

theorem Engine.Roomy.serveWaiter (h : e.Roomy) (w : Side) (slot : Nat) : (e.serveWaiter w slot).Roomy := by
  dsimp only [Engine.serveWaiter]
  repeat' first
    | with_reducible exact h | split | with_reducible apply Roomy.markServed

/-- An order that is taken over keeps its reservation (R52). -/
theorem Engine.Roomy.takenOver (h : e.Roomy) (slot : Nat) :
    (e.updOrder slot fun o => { o with state := .running, waiter := none }).Roomy := by
  refine h.mapCovered (fun o => by split <;> rfl) fun o k => ?_
  split
  · exact ⟨rfl, fun hr => ⟨(k.granted hr).1, .inl rfl, (k.granted hr).2.2⟩, k.unresolved⟩
  · exact ⟨rfl, k⟩

theorem Engine.Roomy.takeover (h : e.Roomy) (j : Side) (o : Order) : (e.takeover x j o).Roomy := by
  dsimp only [Engine.takeover]
  repeat' first
    | with_reducible exact h | split | with_reducible apply Roomy.takenOver
    | with_reducible apply Roomy.writePhase | with_reducible apply Roomy.bind
    | with_reducible apply Roomy.serveWaiter | with_reducible apply Roomy.startOrDefer
    | with_reducible apply Roomy.joinWaiter | with_reducible apply Roomy.unbind
    | with_reducible apply Roomy.decideFinish | with_reducible apply Roomy.freeWaiter
    | with_reducible apply Roomy.setTurn

/-! ### Settling (R31, R115, R157) -/

theorem Engine.Roomy.startTouch (h : e.Roomy) (c : Side) (p : PairId) (first : Bool) :
    (e.startTouch c p first).Roomy := h.same rfl rfl le_rfl

theorem Engine.Roomy.takeStep (h : e.Roomy) (c : Side) (d : Drive) : (e.takeStep x c d).Roomy := by
  dsimp only [Engine.takeStep]
  repeat' first
    | with_reducible exact h | split | with_reducible apply Roomy.updChan | with_reducible apply Roomy.beginStep
    | exact h.same rfl rfl le_rfl

theorem Engine.Roomy.takeNext (h : e.Roomy) (c : Side) : (e.takeNext x c).1.Roomy := by
  dsimp only [Engine.takeNext]
  repeat' first
    | with_reducible exact h | split | with_reducible apply Roomy.takeover | with_reducible apply Roomy.choose
    | with_reducible apply Roomy.takeStep

theorem Engine.Roomy.settleChannel (h : e.Roomy) (c : Side) : (e.settleChannel x c).1.Roomy := by
  dsimp only [Engine.settleChannel]
  repeat' first
    | with_reducible exact h | split | with_reducible apply Roomy.takeNext
    | with_reducible apply Roomy.startTouch

theorem Engine.Roomy.settleLoop (n : Nat) : ∀ {e : Engine}, e.Roomy → (Engine.settleLoop x n e).Roomy := by
  induction n with
  | zero => exact fun h => h
  | succ n ih =>
    intro e h
    have k := (h.settleChannel (x := x) .A).settleChannel (x := x) .B
    dsimp only [Engine.settleLoop]
    split
    · exact ih k
    · exact k

theorem Engine.Roomy.settle (h : e.Roomy) : (e.settle x).Roomy := by
  dsimp only [Engine.settle]
  split
  · exact Roomy.settleLoop 12 h
  · exact h

/-! ### Commands and actions of the host (R20 to R22, R28, R29, R155) -/

theorem Engine.Roomy.finishIfWaiting (h : e.Roomy) (slot : Nat) (code : FinishCode) :
    (e.finishIfWaiting x slot code).Roomy := by
  dsimp only [Engine.finishIfWaiting]
  repeat' first
    | with_reducible exact h | split | with_reducible apply Roomy.finishWaiting

theorem Engine.Roomy.stopAll (h : e.Roomy) : (e.stopAll x).Roomy := by
  dsimp only [Engine.stopAll]
  repeat' first
    | with_reducible exact h | split | with_reducible apply Roomy.finishIfWaiting
    | (apply Roomy.foldl; intro e i h)

theorem Engine.Roomy.abortOrder (h : e.Roomy) (slot : Nat) : (e.abortOrder x slot).Roomy := by
  dsimp only [Engine.abortOrder]
  repeat' first
    | with_reducible exact h | split | with_reducible apply Roomy.updOrder
    | with_reducible apply Roomy.stopOrder | with_reducible apply Roomy.finishWaiting | exact fun _ => rfl

/-- An order that returns to QUEUED gives its reservation back (R53, R74). -/
theorem Engine.Roomy.unwait (h : e.Roomy) (p : PairId) (slot : Nat) : (e.unwait x p slot).Roomy := by
  cases ho : e.order? slot with
  | none => exact (Engine.unwait_of_none x p ho).symm ▸ h
  | some o =>
    cases hr : o.returns p with
    | false => exact (Engine.unwait_of_stays x p ho hr).symm ▸ h
    | true =>
      obtain ⟨c, only⟩ := Engine.unwait_onlyChannel x p ho h.once hr
      have returned : (e.became x slot o Order.returned []).Roomy :=
        h.became (f := Order.returned) ho (fun _ => rfl) rfl (.of_free rfl fun _ => rfl) _
      exact returned.around only.around

theorem Engine.Roomy.detach (h : e.Roomy) (d : Drive) : (e.detach x d).Roomy := by
  unfold Engine.detach
  split
  · exact h
  · exact Engine.Roomy.foldl _ _ (fun e slot h => h.unwait _ slot) (h.pairDetach d)

theorem Engine.Roomy.immediate (h : e.Roomy) (f : OrderFields) : (e.immediate x f).Roomy := by
  dsimp only [Engine.immediate]
  split
  · exact h.updDrive _ _
  · exact h.updDrive _ _
  · exact h.detach _
  all_goals exact h

theorem Engine.Roomy.withdraw (h : e.Roomy) (slot : Nat) : (e.withdraw x slot).1.Roomy := by
  dsimp only [Engine.withdraw]
  repeat' first
    | with_reducible exact h | split | with_reducible apply Roomy.updOrder
    | with_reducible apply Roomy.stopOrder | with_reducible apply Roomy.finishWaiting | exact fun _ => rfl

theorem Engine.Roomy.repost (h : e.Roomy) (slot : Nat) : (e.repost slot).1.Roomy := by
  dsimp only [Engine.repost]
  repeat' first
    | with_reducible exact h | split | with_reducible apply Roomy.updOrder | exact fun _ => rfl

theorem Engine.Roomy.takeSurvey (h : e.Roomy) (m : SurveyMode) (w : Word) : (e.takeSurvey x m w).1.Roomy := by
  dsimp only [Engine.takeSurvey]
  repeat' first
    | with_reducible exact h | split | with_reducible apply Roomy.setSurvey

/-! ### Timers and samples (R115, R144, R158) -/

theorem Engine.Roomy.unloadExpiry (h : e.Roomy) (d : Drive) : (e.unloadExpiry x d).Roomy := by
  dsimp only [Engine.unloadExpiry]
  repeat' first
    | with_reducible exact h | split | with_reducible apply Roomy.updChan | with_reducible apply Roomy.setTimer
    | with_reducible apply Roomy.headUnloaded | with_reducible apply Roomy.startTouch

theorem Engine.Roomy.startDeferred (h : e.Roomy) (c : Side) : (e.startDeferred x c).Roomy := by
  dsimp only [Engine.startDeferred]
  repeat' first
    | with_reducible exact h | split | with_reducible apply Roomy.updChan | with_reducible apply Roomy.setAct
    | with_reducible apply Roomy.release | with_reducible apply Roomy.start

theorem Engine.Roomy.touchEnd (h : e.Roomy) (c : Side) : (e.touchEnd x c).Roomy := by
  dsimp only [Engine.touchEnd]
  repeat' first
    | with_reducible exact h | split | with_reducible apply Roomy.updChan
    | with_reducible apply Roomy.headUnloaded | with_reducible apply Roomy.startDeferred

theorem Engine.Roomy.noIndex (h : e.Roomy) (c : Side) : (e.noIndex x c).Roomy := by
  dsimp only [Engine.noIndex]
  repeat' first
    | with_reducible exact h | split | with_reducible apply Roomy.speedFault

theorem Engine.Roomy.protectStops (h : e.Roomy) (d : Drive) : (e.protectStops x d).Roomy := by
  dsimp only [Engine.protectStops]
  repeat' first
    | with_reducible exact h | split | with_reducible apply Roomy.failSide

theorem Engine.Roomy.surveySample (h : e.Roomy) (c : Side) : (e.surveySample x c).Roomy := by
  dsimp only [Engine.surveySample]
  repeat' first
    | with_reducible exact h | split | with_reducible apply Roomy.setAct
    | with_reducible apply Roomy.trySurveyEnd

theorem Engine.Roomy.sample (h : e.Roomy) (d : Drive) (l : Lines) : (e.sample x d l).Roomy := by
  dsimp only [Engine.sample]
  repeat' first
    | with_reducible exact h | split | with_reducible apply Roomy.sampleReady
    | with_reducible apply Roomy.sampleFlags | with_reducible apply Roomy.protectStops
    | with_reducible apply Roomy.surveySample

theorem Engine.Roomy.surveyTimeout (h : e.Roomy) (c : Side) : (e.surveyTimeout x c).Roomy := by
  dsimp only [Engine.surveyTimeout]
  repeat' first
    | with_reducible exact h | split | with_reducible apply Roomy.setAct
    | with_reducible apply Roomy.trySurveyEnd

/-! ### Entering CONFIG, rounds, the close, acceptance and leaving -/

theorem Engine.Roomy.enterConfig (h : e.Roomy) : (e.enterConfig x).Roomy := h.around (Engine.enterConfig_around x e)

theorem Engine.Roomy.configTouchEnd (h : e.Roomy) (c : Side) : (e.configTouchEnd x c).Roomy := by
  unfold Engine.configTouchEnd
  split
  · exact h
  · rename_i t _
    have dropped := (h.updChan c fun ch => { ch with touch := none }).changeDrive (x := x) ⟨c, t.pair⟩
      fun k => { k with loaded := false }
    refine Engine.Roomy.around ?_ (Engine.configChannels_around x _)
    exact dropped.same rfl rfl le_rfl

/-- The order's record after a due check (R84, R85). -/
def Order.dueChecked (round : BitVec 6) (o : Order) : Order :=
  if o.fallsDue round then o.becomeDue
  else if o.misses round then { o with missedRounds := min 255 (o.missedRounds + 1) } else o

/-- The due check makes of the list the orders' records after it, those that have fallen due at the tail. -/
theorem dueCheck_perm (round : BitVec 6) (l : List Order) :
    (((l.filter fun o => !(o.fallsDue round)).map fun (o : Order) =>
        if o.misses round then { o with missedRounds := min 255 (o.missedRounds + 1) } else o) ++
      (l.filter fun o => o.fallsDue round).map Order.becomeDue).Perm (l.map (Order.dueChecked round)) := by
  have rest : ((l.filter fun o => !(o.fallsDue round)).map fun (o : Order) =>
      if o.misses round then { o with missedRounds := min 255 (o.missedRounds + 1) } else o) =
      (l.filter fun o => !(o.fallsDue round)).map (Order.dueChecked round) :=
    List.map_congr_left fun o ho => by
      have : o.fallsDue round = false := by simpa using (List.mem_filter.mp ho).2
      simp [Order.dueChecked, this]
  have due : (l.filter fun o => o.fallsDue round).map Order.becomeDue =
      (l.filter fun o => o.fallsDue round).map (Order.dueChecked round) :=
    List.map_congr_left fun o ho => by simp [Order.dueChecked, (List.mem_filter.mp ho).2]
  rw [rest, due, ← List.map_append]
  exact (List.perm_append_comm.trans (List.filter_append_perm (fun o : Order => o.fallsDue round) l)).map _

/-- The orders that fall due have nothing reserved; the others at most count a missed round (R84, R85). -/
theorem Engine.Roomy.dueCheck (h : e.Roomy) (round : BitVec 6) : (e.dueCheck x round).Roomy := by
  have checked : Engine.Roomy { e with held := e.held.map (Order.dueChecked round) } := by
    refine h.mapCovered (fun o => ?_) fun o k => ?_
    · unfold Order.dueChecked
      split
      · rfl
      · split <;> rfl
    · unfold Order.dueChecked
      split
      · rename_i hd
        have waits : o.state = .waitingRound := by
          simp only [Order.fallsDue, Bool.and_eq_true, beq_iff_eq] at hd
          exact hd.1.2
        have free := k.free_of_state (by simp [waits]) (by simp [waits])
        exact ⟨free.symm, .of_free rfl fun _ => rfl⟩
      · split
        · exact ⟨rfl, k.granted, k.unresolved⟩
        · exact ⟨rfl, k⟩
  unfold Engine.dueCheck
  exact Engine.Roomy.foldl _ _ (fun e o h => h.writePhase _ _ _) (checked.perm (dueCheck_perm round e.held))

/-- The late orders of a close finish, if any are (R98). -/
theorem Engine.Roomy.close (h : e.Roomy) : (e.close x).Roomy := by
  unfold Engine.close
  dsimp only
  split
  · exact h.setAttention _
  · refine Engine.Roomy.foldl _ _ (fun e slot h => h.finishWaiting _ _ _) ?_
    exact h.same rfl rfl le_rfl

theorem Engine.Roomy.lateDone (h : e.Roomy) : e.lateDone.Roomy := by
  unfold Engine.lateDone
  split
  · exact h
  · split <;> exact h.same rfl rfl le_rfl

theorem Engine.Roomy.writeHeld (h : e.Roomy) (f : OrderFields) (g : Nat → Nat) : (e.writeHeld x f g).Roomy := by
  refine Engine.Roomy.foldl _ _ (fun e d h => ?_) ?_
  · unfold Engine.countDrive
    split
    · exact h.updDrive _ _
    · exact h
  · exact h.same rfl rfl le_rfl

/-- An accepted order joins with nothing reserved (R18). -/
theorem Engine.Roomy.accept (h : e.Roomy) {slot : Nat} (free : slot ∉ e.held.map Order.slot) (f : OrderFields) :
    (e.accept x slot f).Roomy := by
  have joined : Engine.Roomy { e with held := e.held ++ [Order.accepted e slot f] } :=
    { once := by
        simp only [List.map_append, List.map_cons, List.map_nil]
        exact List.nodup_append.mpr ⟨h.once, List.nodup_singleton _, fun n hn m hm k =>
          free ((k.trans (List.mem_singleton.mp hm) : n = slot) ▸ hn)⟩
      room := h.room
      total := by simp [h.total, Order.accepted]
      covered := fun o ho => by
        rcases List.mem_append.mp ho with ho | ho
        · exact h.covered o ho
        · rw [List.mem_singleton.mp ho]
          exact .of_free rfl fun _ => rfl }
  exact (joined.writePhase _ _ _).writeHeld _ _

/-- An order whose finish is decided leaves with nothing reserved (R24). -/
theorem Engine.Roomy.leaveList (h : e.Roomy) (slot : Nat) : (e.leaveList x slot).Roomy := by
  unfold Engine.leaveList
  split
  · exact h
  · rename_i o ho
    split
    · rename_i hf
      obtain ⟨mem, rfl⟩ := Engine.order?_mem ho
      have free : o.reservation = 0 := by
        by_contra hr
        simp [((h.covered o mem).granted hr).1] at hf
      have left : Engine.Roomy { e with held := e.held.filter fun o' => !(o'.slot == o.slot) } :=
        { once := (List.filter_sublist.map _).nodup h.once
          room := h.room
          total := by
            have := ((perm_cons_filter_slot h.once mem).map Order.reservation).sum_eq
            simp only [List.map_cons, List.sum_cons, free, Nat.zero_add] at this
            exact h.total.trans this
          covered := fun o' ho' => h.covered o' (List.mem_of_mem_filter ho') }
      refine Engine.Roomy.writeHeld ?_ _ _
      exact left.same rfl rfl le_rfl
    · exact h

theorem imageEntries_length {pairs : ByPair PairRecord} {drives : ByDrive DriveRecord} {n pos : Nat} {ws : List Word}
    {before log : List LogEntry} (h : imageEntries pairs drives n pos ws before = .ok log) :
    log.length = before.length + n := by
  induction n generalizing pos ws before with
  | zero =>
    cases h
    rfl
  | succ n ih =>
    unfold imageEntries at h
    split at h
    · cases h
    · rw [ih h]
      simp only [List.length_append, List.length_singleton]
      omega

/-- The image that a START takes over fits the log (R62). -/
theorem checkArea_length {old : ByPair PairRecord} {a : AreaData} {image : List Word} {k : Commit}
    (h : checkArea old a image = .ok k) : k.log.length ≤ 32 := by
  unfold checkArea at h
  cases ht : checkTables old a with
  | error e => rw [ht] at h; cases h
  | ok p =>
    rw [ht] at h
    cases hi : imageOf p.2 p.1 (imageLength a) image with
    | error e => simp only [bind, Except.bind, hi] at h; cases h
    | ok log =>
      simp only [bind, Except.bind, hi] at h
      cases h
      unfold imageOf at hi
      split at hi
      · rename_i fits
        rw [imageEntries_length hi, List.length_nil, Nat.zero_add]
        exact fits
      · cases hi

/-- On entering RUN no order is held, and nothing is reserved (R165). -/
theorem Engine.Roomy.enterRun (held : e.held = []) {k : Commit} (room : k.log.length ≤ 32) :
    (e.enterRun x k).Roomy := by
  unfold Engine.enterRun
  refine .foldl _ _ (fun _ d h => h.writeStatus _ _) (.foldl _ _ (fun _ d h => h.issue _ _ _) ?_)
  refine Engine.Roomy.issue ?_ _ _ _
  refine .foldl _ _ (fun _ d h => h.setDrive _ _) ?_
  exact ⟨by simp [held], by simpa using room, by simp [held], by simp [held]⟩

end

/-! ### The room over a whole command -/

/-- The engine's part of `State.RoomKept`, with each slot held once. -/
def State.Roomy (s : State) : Prop := s.engine.Roomy

section
variable {s t : State}

theorem State.PortOnly.roomy (h : s.PortOnly t) (k : s.Roomy) : t.Roomy :=
  k.same (by rw [h.engine]) (by rw [h.engine]) (by rw [h.engine])

theorem State.Roomy.settle (k : s.Roomy) : s.settle.Roomy := by
  unfold State.settle
  dsimp only
  split
  · exact (Engine.Roomy.settle k).enterConfig
  · exact Engine.Roomy.settle k

theorem State.Roomy.engineEvent (k : s.Roomy) {f : Front → Engine → Engine}
    (hf : ∀ x (e : Engine), e.Roomy → (f x e).Roomy) : (s.engineEvent f).Roomy := by
  unfold State.engineEvent
  split
  · exact State.Roomy.settle (s := { s with engine := f s.front s.engine }) (hf _ _ k)
  · exact k

/-- A row that is an event at the engine. -/
theorem State.Roomy.eventRow (k : s.Roomy) {f : Front → Engine → Engine}
    (h : (Host.Outcome.next (s.engineEvent f) : Result) = .next t)
    (hf : ∀ x (e : Engine), e.Roomy → (f x e).Roomy) : t.Roomy := by
  cases h
  exact k.engineEvent hf

theorem State.Roomy.answer (k : s.Roomy) (w : Word) (o : ActionOutcome) : (s.answer w o).Roomy :=
  Engine.Roomy.same k rfl rfl le_rfl

theorem State.takeAction_roomy {row : Word → Bool} {w : Word} (h : s.takeAction row = some (w, t)) (k : s.Roomy) :
    t.Roomy := by
  obtain ⟨-, -, -, s1, -, h1, rfl⟩ := State.takeAction_some h
  exact (State.intakeReady_only h1).roomy k

theorem State.Roomy.act (k : s.Roomy) {row : Word → Bool} {f : State → Word → State}
    (hf : ∀ (s : State) (w : Word), s.Roomy → (f s w).Roomy) : (s.act row f).Roomy := by
  unfold State.act
  split
  · exact k
  · rename_i w s' h
    have k' := State.takeAction_roomy h k
    split
    · exact (hf s' w k').settle
    · exact k'.answer _ _

theorem State.Roomy.failStart (k : s.Roomy) (code : ConfigErrorCode) (item : Nat) : (s.failStart code item).Roomy :=
  Engine.Roomy.same k rfl rfl le_rfl

theorem State.Roomy.tryStart (k : s.Roomy) : s.tryStart.Roomy := by
  unfold State.tryStart
  split
  · unfold State.beginStart
    split
    · exact k.failStart _ _
    · exact Engine.Roomy.same k rfl rfl le_rfl
  · exact k

theorem State.Roomy.transferDone (k : s.Roomy) (c : Side) (toHost : Bool) {f : Front → Engine → Transfer → Engine}
    (hf : ∀ x (e : Engine) t, e.Roomy → (f x e t).Roomy) : (s.transferDone c toHost f).Roomy := by
  unfold State.transferDone
  split
  · have k := (s.serve_only (State.moved c toHost)).roomy k
    dsimp only
    split
    · exact k
    · exact k.engineEvent fun x e => hf x e _
  · exact k

/-- The rows that only set an ATTENTION bit once a write has completed. -/
theorem State.Roomy.attention (k : s.Roomy) {p : Notice → Bool} {n : Notice} (a : s.await p = some (n, t)) (bit : Nat) :
    State.Roomy { t with engine := t.engine.setAttention bit } :=
  Engine.Roomy.setAttention ((State.await_only a).roomy k) bit

/-! ### START and the intake -/

theorem State.Roomy.decideStart (k : s.Roomy) (held : s.engine.held = []) (area : AreaData) (image : List Word) :
    (s.decideStart area image).Roomy := by
  unfold State.decideStart
  split
  · exact k.failStart _ _
  · rename_i r hr
    exact State.Roomy.settle (Engine.Roomy.enterRun held (checkArea_length hr))

theorem State.Roomy.startTables (k : s.Roomy) (held : s.engine.held = []) (area : AreaData) :
    (s.startTables area).Roomy := by
  unfold State.startTables
  split
  · exact k.failStart _ _
  · split
    · exact Engine.Roomy.same k rfl rfl le_rfl
    · exact k.decideStart held _ _

theorem State.Roomy.startRead (k : s.Roomy) (held : s.engine.held = []) {f : State → State}
    (hf : ∀ s : State, s.Roomy → s.engine.held = [] → (f s).Roomy) : (s.startRead f).Roomy := by
  unfold State.startRead
  split
  · exact k
  · rename_i s' a
    have only := State.await_only a
    exact hf s' (only.roomy k) (by rw [only.engine, held])

theorem State.Roomy.decidePost (k : s.Roomy) {w : Word} (free : actionOperand w ∉ s.engine.held.map Order.slot)
    (words : List Word) : (s.decidePost w words).Roomy := by
  unfold State.decidePost
  dsimp only
  split
  · exact k.answer _ _
  · split
    · exact Engine.Roomy.same k rfl rfl le_rfl
    · split
      · rename_i f _ _
        exact (Engine.Roomy.immediate (x := s.front) k f).same rfl rfl le_rfl
      · exact (Engine.Roomy.accept (x := s.front) k free _).same rfl rfl le_rfl

theorem State.Roomy.afterDone (k : s.Roomy) (slot : Nat) (how : DoneHow) : (s.afterDone slot how).Roomy := by
  have answered (o : ActionOutcome) : (s.answerClosing o).Roomy := by
    unfold State.answerClosing
    split
    · exact k.answer _ _
    · exact k
  cases how with
  | leaves =>
    have left : (s.engine.leaveList s.front slot).Roomy := Engine.Roomy.leaveList k slot
    dsimp only [State.afterDone, State.orderLeaves]
    split
    · exact left.same rfl rfl le_rfl
    · exact left
  | stays => exact k
  | refused => exact answered _
  | immediate => exact answered _

/-! ### The commands -/

theorem execStart_roomy (k : s.Roomy) (h : execStart s = .next t) : t.Roomy := by
  cases h
  dsimp only
  split
  · exact State.Roomy.tryStart (s := { s with front := _ }) k
  · exact k

theorem execStartReadComplete_roomy (k : s.Roomy) (idle : s.front.ctl = .starting → s.engine.held = [])
    {read : StartRead} (h : execStartReadComplete read s = .next t) : t.Roomy := by
  cases h
  split
  · rename_i hc _
    exact k.startRead (idle hc) fun s k held => k.startTables held _
  · rename_i hc _
    exact k.startRead (idle hc) fun s k held => k.decideStart held _ _
  · exact k

theorem execStop_roomy (k : s.Roomy) (h : execStop s = .next t) : t.Roomy := by
  cases h
  dsimp only
  split
  · refine State.Roomy.settle (Engine.Roomy.stopAll (Engine.Roomy.setSurvey ?_ _))
    exact Engine.Roomy.same k rfl rfl le_rfl
  · exact k

theorem execAbortAll_roomy (k : s.Roomy) (h : execAbortAll s = .next t) : t.Roomy := by
  cases h
  dsimp only
  split
  · exact State.Roomy.settle (Engine.Roomy.foldl _ _ (fun e slot h => h.abortOrder slot) k)
  · exact k

theorem execPresetReadComplete_roomy (k : s.Roomy) {p : Word} (h : execPresetReadComplete p s = .next t) :
    t.Roomy := by
  cases h
  split
  · exact k
  · rename_i a
    exact Engine.Roomy.same ((State.await_only a).roomy k) rfl rfl le_rfl

theorem execPost_roomy (k : s.Roomy) (h : execPost s = .next t) : t.Roomy := by
  cases h
  refine k.act fun s w k => ?_
  split
  · exact k.answer _ _
  · exact Engine.Roomy.issue k _ _ _

theorem execWithdraw_roomy (k : s.Roomy) (h : execWithdraw s = .next t) : t.Roomy := by
  cases h
  refine k.act fun s w k => ?_
  have k := Engine.Roomy.withdraw (x := s.front) k (actionOperand w)
  dsimp only [State.answerWithdraw]
  split <;> exact k.same rfl rfl le_rfl

theorem execBadAction_roomy (k : s.Roomy) (h : execBadAction s = .next t) : t.Roomy := by
  cases h
  split
  · exact k
  · rename_i h
    exact (State.takeAction_roomy h k).answer _ _

/-- A POST in hand is for a slot that no held order has (R10). -/
theorem execSlotReadComplete_roomy (k : s.Roomy) (once : s.HeldOnce) {words : List Word}
    (h : execSlotReadComplete words s = .next t) : t.Roomy := by
  cases h
  split
  · rename_i w hi
    split
    · exact k
    · rename_i s' a
      have only := State.await_only a
      have k := only.roomy k
      split
      · refine (k.decidePost ?_ words).settle
        rw [only.engine]
        exact once.notMem hi
      · exact k.answer _ _
  all_goals exact k

theorem execBusErrorRecord_roomy (k : s.Roomy) {n : Nat} (h : execBusErrorRecord n s = .next t) : t.Roomy := by
  cases h
  dsimp only
  split
  · exact k
  · split
    · have k := (s.serveTo_only State.onRecord).roomy k
      split <;> exact Engine.Roomy.same k rfl rfl le_rfl
    · exact k

theorem execMemoryError_roomy (k : s.Roomy) {c : Side} (h : execMemoryError c s = .next t) : t.Roomy := by
  cases h
  split
  · have served := (s.serveTo_only (State.onWord c)).roomy k
    exact ((State.portIdle_only _).roomy served).engineEvent fun _ _ h => h.bufferError _ _
  · exact k

theorem execDoneBitSet_roomy (k : s.Roomy) (h : execDoneBitSet s = .next t) : t.Roomy := by
  cases h
  split
  · rename_i slot notify how late s' a
    have done : State.Roomy { s' with front := s'.front.setDone slot notify } := (State.await_only a).roomy k
    refine State.Roomy.settle ?_
    split
    · exact Engine.Roomy.lateDone (done.afterDone slot how)
    · exact done.afterDone slot how
  · exact k

theorem execAgeTick_roomy (k : s.Roomy) (h : execAgeTick s = .next t) : t.Roomy := by
  cases h
  dsimp only
  split
  · have aged : Engine.Roomy { s.engine with held := s.engine.held.map Order.ageTick } :=
      Engine.Roomy.mapHeld k fun o => by unfold Order.ageTick; split <;> rfl
    exact aged.same rfl rfl le_rfl
  · exact k

theorem execUnloadTouchEnd_roomy (k : s.Roomy) {c : Side} (h : execUnloadTouchEnd c s = .next t) : t.Roomy := by
  have touch : (s.engineEvent fun x e => e.touchEnd x c).Roomy := k.engineEvent fun _ _ h => h.touchEnd _
  have config : State.Roomy ({ s with engine := s.engine.configTouchEnd s.front c } : State).tryStart :=
    State.Roomy.tryStart (Engine.Roomy.configTouchEnd k c)
  cases h
  split
  · exact touch
  · exact touch
  · exact config
  · exact config
  · exact k

theorem execRoundTick_roomy (k : s.Roomy) (h : execRoundTick s = .next t) : t.Roomy := by
  cases h
  dsimp only
  split
  · refine State.Roomy.settle ?_
    have written : (s.engine.headerWrite s.front.nextRound
        [(0x10, BitVec.ofNat 16 s.front.nextRound.round.toNat)] none).Roomy := Engine.Roomy.issue k _ _ _
    unfold State.Roomy
    dsimp only
    split
    · exact written.dueCheck _
    · exact written
  · exact k

theorem execEditionCount_roomy (k : s.Roomy) (h : execEditionCount s = .next t) : t.Roomy := by
  cases h
  dsimp only
  split
  · have counted : (s.setClock s.front.clock.count).Roomy := Engine.Roomy.same k rfl rfl le_rfl
    refine State.Roomy.settle ?_
    split
    · exact Engine.Roomy.close counted
    · exact counted
  · split
    · exact Engine.Roomy.setAttention k _
    · exact k

theorem execStepTimeEnd_roomy (k : s.Roomy) {c : Side} {trk0 : Bool} (h : execStepTimeEnd c trk0 s = .next t) :
    t.Roomy := by
  cases h
  have line : (s.trackLine c trk0).Roomy := by
    unfold State.trackLine
    split <;> exact k
  exact line.engineEvent fun _ _ h => h.stepEnd _ _

theorem execReadySample_roomy (k : s.Roomy) {d : Drive} {l : Lines} (h : execReadySample d l s = .next t) :
    t.Roomy := by
  cases h
  exact State.Roomy.engineEvent (s := { s with front := s.front.setPins d l }) k fun _ _ h => h.sample _ _

theorem State.resetTo_roomy (s : State) (base : BitVec 12) (line : Bool) (n : Nat) : (s.resetTo base line n).Roomy := by
  constructor <;> simp [State.resetTo, Engine.resetWith]

/-- The rows that change no more than the front, or an ATTENTION bit or a record with it. -/
theorem State.Roomy.frontRow {p : Prop} [Decidable p] (k : s.Roomy) {a : State} (ha : a.engine.Roomy)
    (h : (Host.Outcome.next (if p then a else s) : Result) = .next t) : t.Roomy := by
  cases h
  split
  · exact ha
  · exact k

theorem State.Roomy.awaitRow (k : s.Roomy) {p : Notice → Bool} {bit : Nat}
    (h : (Host.Outcome.next (match s.await p with
      | none => s
      | some (_, s) => { s with engine := s.engine.setAttention bit }) : Result) = .next t) : t.Roomy := by
  cases h
  split
  · exact k
  · exact k.attention ‹_› _

end

/-- What a command keeps of the room. -/
theorem exec_roomy {c : Instr} {s t : State} (once : s.HeldOnce) (idle : s.front.ctl = .starting → s.engine.held = [])
    (k : s.Roomy) (h : exec c s = .next t) : t.Roomy := by
  cases c with
  | start => exact execStart_roomy k h
  | startReadComplete read => exact execStartReadComplete_roomy k idle h
  | stop => exact execStop_roomy k h
  | abortAll => exact execAbortAll_roomy k h
  | reset moved => exact k.frontRow (s.resetTo_roomy _ _ _) h
  | clockLoad => exact k.frontRow (Engine.Roomy.issue k _ _ _) h
  | presetReadComplete preset => exact execPresetReadComplete_roomy k h
  | clockRun => exact k.frontRow (Engine.Roomy.issue k _ _ _) h
  | clockHalt => exact k.frontRow (Engine.Roomy.issue k _ _ _) h
  | areaBaseWrite w =>
    refine k.frontRow (a := { s with front := { s.front with areaBase := w.setWidth 12 } }) ?_ h
    exact k
  | actionWrite w =>
    refine k.frontRow ?_ h
    split
    · exact k
    · exact Engine.Roomy.setAttention k _
  | doneClear high w =>
    refine k.frontRow (a := { s with front := s.front.clearDone high w }) ?_ h
    exact k
  | attentionClear w =>
    refine k.frontRow (a := { s with engine := s.engine.clearAttention w }) ?_ h
    exact Engine.Roomy.same k rfl rfl le_rfl
  | post => exact execPost_roomy k h
  | slotReadComplete words => exact execSlotReadComplete_roomy k once h
  | withdraw => exact execWithdraw_roomy k h
  | repost =>
    cases h
    exact k.act fun s w k => (Engine.Roomy.repost k _).same rfl rfl le_rfl
  | surveyOnce =>
    cases h
    exact k.act fun s w k => (Engine.Roomy.takeSurvey (x := s.front) k _ _).same rfl rfl le_rfl
  | surveyLoop =>
    cases h
    exact k.act fun s w k => (Engine.Roomy.takeSurvey (x := s.front) k _ _).same rfl rfl le_rfl
  | surveyStop =>
    cases h
    exact k.act fun s w k => (Engine.Roomy.setSurvey (x := s.front) k _).same rfl rfl le_rfl
  | badAction => exact execBadAction_roomy k h
  | resetLine moved =>
    cases h
    exact s.resetTo_roomy _ _ _
  | resetLineRelease =>
    cases h
    exact k
  | busGrant =>
    cases h
    exact s.grant_only.roomy k
  | busErrorRecord word => exact execBusErrorRecord_roomy k h
  | memoryError c => exact execMemoryError_roomy k h
  | bufferCopyComplete c =>
    cases h
    exact k.transferDone _ _ fun _ _ _ h => h.copied _ _
  | bufferFetchComplete c data =>
    cases h
    exact k.transferDone _ _ fun _ _ _ h => h.fetched _ _ _
  | doneBitSet => exact execDoneBitSet_roomy k h
  | driveAttention d => exact k.awaitRow h
  | surveyDone => exact k.awaitRow h
  | configError => exact k.awaitRow h
  | ageTick => exact execAgeTick_roomy k h
  | headUnloadExpiry d => exact k.eventRow h fun _ _ h => h.unloadExpiry d
  | unloadTouchEnd c => exact execUnloadTouchEnd_roomy k h
  | surveyWaitExpiry =>
    cases h
    exact k.settle
  | roundTick => exact execRoundTick_roomy k h
  | editionCount => exact execEditionCount_roomy k h
  | claim c => exact k.eventRow h fun _ _ h => h.takeClaim c
  | stepTimeEnd c trk0 => exact execStepTimeEnd_roomy k h
  | settleEnd c => exact k.eventRow h fun _ _ h => h.settleEnd c
  | headLoadEnd c => exact k.eventRow h fun _ _ h => h.loadEnd c
  | idFieldRead c field => exact k.eventRow h fun _ _ h => h.idField c field
  | dataFieldRead c field => exact k.eventRow h fun _ _ h => h.dataField c field
  | dataFieldWritten c => exact k.eventRow h fun _ _ h => h.dataWritten c
  | passAcross c => exact k.eventRow h fun _ _ h => h.passAcross c
  | searchTimeout c sector => exact k.eventRow h fun _ _ h => h.searchTimeout c sector
  | indexPulse c elapsed => exact k.eventRow h fun _ _ h => h.indexPulse c elapsed
  | noIndexTimeout c => exact k.eventRow h fun _ _ h => h.noIndex c
  | readySample d lines => exact execReadySample_roomy k h
  | surveyStepTimeout c => exact k.eventRow h fun _ _ h => h.surveyTimeout c
  | nominalFinalFillEnd c => exact k.eventRow h fun _ _ h => h.finalFillEnd c

/-! ### No order is held in CONFIG and STARTING (R160, R161) -/

/-- In CONFIG and STARTING no order is held. -/
def State.IdleEmpty (s : State) : Prop := s.front.ctl = .config ∨ s.front.ctl = .starting → s.engine.held = []

theorem State.Passes.idleEmpty {s t : State} (h : s.Passes t) (k : s.IdleEmpty) : t.IdleEmpty := fun hc =>
  (h.idle hc).elim id fun hs => h.engine.held_nil (k hs)

theorem State.RosterEvent.idleEmpty {c : Instr} {s t : State} (h : State.RosterEvent c s t) (k : s.IdleEmpty) :
    t.IdleEmpty := by
  cases h with
  | accept words _ w f hi hc => exact fun h => absurd (hc ▸ h : Ctl.run = .config ∨ Ctl.run = .starting) (by decide)
  | leave _ slot o ho hf =>
    intro h
    have := k (s.orderLeaves_ctl slot ▸ h)
    rw [Engine.order?, this] at ho
    cases ho
  | start read _ r hc _ _ => exact fun h => absurd h (by simp [Front.enterRun])
  | reset moved _ base line n => exact fun _ => rfl
  | resetLine moved _ base line n => exact fun _ => rfl

/-- Settles O8: every operation keeps `Engine.Roomy`; a grant takes entries that are free, a resolved sector gives
one back before an outcome is logged, and an order has given all back when it finishes or waits again. -/
theorem logRoomIsKept : Obligations.LogRoomIsKept := by
  intro s t once k h
  have roomy : s.Roomy := ⟨once.once, k.room, k.total, fun o ho => ⟨k.granted o ho, k.unresolved o ho⟩⟩
  have idle : t.IdleEmpty := State.Kept.of_events (P := State.IdleEmpty) State.Passes.idleEmpty
    State.RosterEvent.idleEmpty h k.idle
  have kept : t.Roomy := by
    unfold step at h
    split at h
    · cases h
      exact roomy
    · rename_i c rest _
      exact exec_roomy (s := { s with pending := rest }) ⟨once.once, once.slots, once.reading⟩
        (fun hc => k.idle (.inr hc)) roomy h
  exact ⟨kept.room, kept.total, fun o ho => (kept.covered o ho).granted, fun o ho => (kept.covered o ho).unresolved,
    idle⟩

end Sys2Proof.Machine

namespace Sys2Proof.Machine

/-! ### The score (R42 to R45, R100) -/

theorem planMax_side (c : Side) (f : Side → Nat) : planMax ((BySide.both false).set c true) f = f c := by
  cases c <;> simp [planMax, BySide.set, BySide.both]

theorem planMax_both (f : Side → Nat) : planMax (BySide.both true) f = max (f .A) (f .B) := rfl

theorem planMax_le {plan : BySide Bool} {f : Side → Nat} {n : Nat} (h : ∀ c, f c ≤ n) : planMax plan f ≤ n := by
  unfold planMax
  refine max_le ?_ ?_
  · split
    · exact h .A
    · exact Nat.zero_le n
  · split
    · exact h .B
    · exact Nat.zero_le n

theorem rushTerm_eq (rush : Bool) (p : Phase) :
    rushTerm rush p = if rush = true ∧ (p = .near ∨ p = .closed) then 128 else 0 := by
  cases rush <;> cases p <;> rfl

theorem Engine.score_eq (x : Front) (e : Engine) (o : Order) :
    e.score x o = 2 * (o.urgency x : Int) - (e.cost x o : Int) := rfl

/-- Classes of at most 3 keep the urgency within its greatest value (R42). -/
theorem Order.urgency_le {x : Front} {o : Order}
    (h : (x.tables.desks[o.fields.desk]?.map Desk.cls).getD 0 ≤ 3) : o.urgency x ≤ 447 := by
  have rush : rushTerm o.fields.rush x.clock.phase ≤ 128 := by
    rw [rushTerm_eq]
    split <;> omega
  have age : min o.age 127 ≤ 127 := min_le_right _ _
  simp only [Order.urgency]
  omega

/-- Between cylinders below 80 the distance is less than that of an unknown one (R43). -/
theorem Engine.distance_le {e : Engine} {d : Drive} {t : Nat} (ht : t < 80)
    (h : ∀ v, (e.drive d).cylinder = some v → v < 80) : e.distance d t ≤ 80 := by
  unfold Engine.distance
  split
  · exact le_rfl
  · have := h _ ‹_›
    split <;> omega

theorem Engine.cost_le {x : Front} {e : Engine} {o : Order} (ht : e.target x o < 80)
    (h : ∀ d v, (e.drive d).cylinder = some v → v < 80) : e.cost x o ≤ 104 := by
  have distance : planMax (e.planOf o) (fun c => e.distance (o.driveOn c) (e.target x o)) ≤ 80 :=
    planMax_le fun c => Engine.distance_le ht (h _)
  have head : planMax (e.planOf o) (fun c => e.headTerm (o.driveOn c)) ≤ 16 :=
    planMax_le fun c => by unfold Engine.headTerm; split <;> omega
  have drive : planMax (e.planOf o) (fun c => e.driveTerm (o.driveOn c)) ≤ 8 :=
    planMax_le fun c => by unfold Engine.driveTerm; split <;> omega
  unfold Engine.cost
  dsimp only
  omega

/-! ### The winner (R46, R47) -/

/-- A list has an element of the greatest measure that is the first such, and it is the one found. -/
def IsFirstGreatest (f : Order → Int) (os : List Order) (w : Order) : Prop :=
  ∃ before after, os = before ++ w :: after ∧ (∀ o ∈ before, f o < f w) ∧ ∀ o ∈ after, f o ≤ f w

/-- The better of the best so far and the next, which must be greater to be taken. -/
def betterOf (f : Order → Int) (best : Option Order) (o : Order) : Option Order :=
  match best with
  | none => some o
  | some b => if f b < f o then some o else some b

theorem firstGreatest_concat (f : Order → Int) (os : List Order) (o : Order) :
    firstGreatest f (os ++ [o]) = betterOf f (firstGreatest f os) o := by
  have fold (os : List Order) : firstGreatest f os = os.foldl (betterOf f) none := rfl
  simp only [fold, List.foldl_append, List.foldl_cons, List.foldl_nil]

theorem betterOf_some (f : Order → Int) (b o : Order) :
    betterOf f (some b) o = if f b < f o then some o else some b := rfl

theorem firstGreatest_isSome (f : Order → Int) {os : List Order} (h : os ≠ []) :
    ∃ w, firstGreatest f os = some w := by
  obtain ⟨init, o, rfl⟩ := List.eq_nil_or_concat os |>.resolve_left h
  rw [List.concat_eq_append, firstGreatest_concat]
  cases firstGreatest f init with
  | none => exact ⟨o, rfl⟩
  | some b =>
    rw [betterOf_some]
    split
    · exact ⟨o, rfl⟩
    · exact ⟨b, rfl⟩

theorem firstGreatest_some {f : Order → Int} {os : List Order} {w : Order} (h : firstGreatest f os = some w) :
    IsFirstGreatest f os w := by
  induction os using List.reverseRecOn generalizing w with
  | nil => cases h
  | append_singleton os o ih =>
    rw [firstGreatest_concat] at h
    cases hb : firstGreatest f os with
    | none =>
      rw [hb] at h
      cases h
      have empty : os = [] := by
        by_contra hne
        obtain ⟨w, hw⟩ := firstGreatest_isSome f hne
        rw [hb] at hw
        cases hw
      exact ⟨[], [], by simp [empty], by simp, by simp⟩
    | some b =>
      obtain ⟨before, after, rfl, less, atMost⟩ := ih hb
      rw [hb, betterOf_some] at h
      split at h
      · rename_i lt
        cases h
        refine ⟨before ++ b :: after, [], by simp, fun o' ho' => ?_, by simp⟩
        rcases List.mem_append.mp ho' with ho' | ho'
        · exact (less o' ho').trans lt
        · rcases List.mem_cons.mp ho' with rfl | ho'
          · exact lt
          · exact (atMost o' ho').trans_lt lt
      · rename_i le
        cases h
        refine ⟨before, after ++ [o], by simp, less, fun o' ho' => ?_⟩
        rcases List.mem_append.mp ho' with ho' | ho'
        · exact atMost o' ho'
        · rw [List.mem_singleton.mp ho']
          exact Int.not_lt.mp le

/-- The first greatest of those that pass a test, seen in the whole list. -/
theorem firstGreatest_filter {f : Order → Int} {p : Order → Bool} {l : List Order} {w : Order}
    (h : firstGreatest f (l.filter p) = some w) :
    p w = true ∧ ∃ before after, l = before ++ w :: after ∧ (∀ o ∈ before, p o = true → f o < f w) ∧
      ∀ o ∈ after, p o = true → f o ≤ f w := by
  obtain ⟨before, after, split, less, atMost⟩ := firstGreatest_some h
  obtain ⟨l₁, l₂, rfl, rfl, hw⟩ := List.filter_eq_append_iff.mp split
  obtain ⟨m₁, m₂, rfl, none, pw, rfl⟩ := List.filter_eq_cons_iff.mp hw
  refine ⟨pw, l₁ ++ m₁, m₂, by simp, fun o ho po => ?_, fun o ho po => atMost o (List.mem_filter.mpr ⟨ho, po⟩)⟩
  rcases List.mem_append.mp ho with ho | ho
  · exact less o (List.mem_filter.mpr ⟨ho, po⟩)
  · exact absurd po (none o ho)

section
variable {x : Front} {e : Engine} {c : Side} {w : Order}

/-- Where an eligible order is overdue the ages decide, otherwise the scores (R46, R47). -/
theorem Engine.winner?_of_overdue (h : ∃ o ∈ e.held, e.eligible x o c = true ∧ x.tables.overdue ≤ o.age) :
    e.winner? x c = firstGreatest (fun o => (o.age : Int))
      (e.held.filter fun o => decide (x.tables.overdue ≤ o.age) && e.eligible x o c) := by
  obtain ⟨o, ho, el, late⟩ := h
  unfold Engine.winner?
  simp only [List.filter_filter]
  refine if_neg fun empty => ?_
  rw [List.isEmpty_iff, List.filter_eq_nil_iff] at empty
  exact empty o ho (by simp [el, late])

theorem Engine.winner?_of_none_overdue (h : ∀ o ∈ e.held, e.eligible x o c = true → o.age < x.tables.overdue) :
    e.winner? x c = firstGreatest (e.score x) (e.held.filter fun o => e.eligible x o c) := by
  unfold Engine.winner?
  simp only [List.filter_filter]
  refine if_pos ?_
  rw [List.isEmpty_iff, List.filter_eq_nil_iff]
  intro o ho k
  simp only [Bool.and_eq_true, decide_eq_true_eq] at k
  exact absurd (h o ho k.2) (Nat.not_lt.mpr k.1)

/-- Either an eligible order is overdue, or none is. -/
theorem Engine.overdue_cases (x : Front) (e : Engine) (c : Side) :
    (∃ o ∈ e.held, e.eligible x o c = true ∧ x.tables.overdue ≤ o.age) ∨
      ∀ o ∈ e.held, e.eligible x o c = true → o.age < x.tables.overdue := by
  by_cases h : ∃ o ∈ e.held, e.eligible x o c = true ∧ x.tables.overdue ≤ o.age
  · exact .inl h
  · push Not at h
    exact .inr h

theorem Engine.winner?_isSome_iff : (∃ o ∈ e.held, e.eligible x o c = true) ↔ ∃ w, e.winner? x c = some w := by
  constructor
  · rintro ⟨o, ho, el⟩
    rcases e.overdue_cases x c with late | none
    · rw [Engine.winner?_of_overdue late]
      obtain ⟨o', ho', el', late'⟩ := late
      exact firstGreatest_isSome _ (List.ne_nil_of_mem (List.mem_filter.mpr ⟨ho', by simp [el', late']⟩))
    · rw [Engine.winner?_of_none_overdue none]
      exact firstGreatest_isSome _ (List.ne_nil_of_mem (List.mem_filter.mpr ⟨ho, el⟩))
  · rintro ⟨w, hw⟩
    rcases e.overdue_cases x c with late | none
    · exact late.imp fun o ⟨ho, el, _⟩ => ⟨ho, el⟩
    · rw [Engine.winner?_of_none_overdue none] at hw
      obtain ⟨el, before, after, split, -⟩ := firstGreatest_filter hw
      exact ⟨w, by simp [split], el⟩

/-- The winner's place in the list, and what it is the first greatest by. -/
theorem Engine.winner?_some (h : e.winner? x c = some w) :
    e.eligible x w c = true ∧ ∃ before after, e.held = before ++ w :: after ∧
      ((∃ o ∈ e.held, e.eligible x o c = true ∧ x.tables.overdue ≤ o.age) →
        x.tables.overdue ≤ w.age ∧
        (∀ o ∈ before, e.eligible x o c = true → x.tables.overdue ≤ o.age → o.age < w.age) ∧
        ∀ o ∈ after, e.eligible x o c = true → x.tables.overdue ≤ o.age → o.age ≤ w.age) ∧
      ((∀ o ∈ e.held, e.eligible x o c = true → o.age < x.tables.overdue) →
        (∀ o ∈ before, e.eligible x o c = true → e.score x o < e.score x w) ∧
        ∀ o ∈ after, e.eligible x o c = true → e.score x o ≤ e.score x w) := by
  rcases e.overdue_cases x c with late | none
  · rw [Engine.winner?_of_overdue late] at h
    obtain ⟨pw, before, after, split, less, atMost⟩ := firstGreatest_filter h
    simp only [Bool.and_eq_true, decide_eq_true_eq, and_imp] at pw less atMost
    refine ⟨pw.2, before, after, split, fun _ => ⟨pw.1, fun o ho el od => ?_, fun o ho el od => ?_⟩, fun none => ?_⟩
    · exact_mod_cast less o ho od el
    · exact_mod_cast atMost o ho od el
    · obtain ⟨o, ho, el, od⟩ := late
      exact absurd (none o ho el) (Nat.not_lt.mpr od)
  · rw [Engine.winner?_of_none_overdue none] at h
    obtain ⟨el, before, after, split, less, atMost⟩ := firstGreatest_filter h
    refine ⟨el, before, after, split, fun late => ?_, fun _ => ⟨less, atMost⟩⟩
    obtain ⟨o, ho, el, od⟩ := late
    exact absurd (none o ho el) (Nat.not_lt.mpr od)

/-- A choice claims its winner (R32). -/
theorem Engine.choose_of_winner (h : e.winner? x c = some w) :
    e.choose x c = { (e.noteRooms x c).updChan c
      (fun ch => { ch with claim := some { slot := w.slot, held := true } }) with
      freeIndex := (e.noteRooms x c).freeIndex + 1 } := by
  simp only [Engine.choose, h]

theorem Engine.choose_of_none (h : e.winner? x c = none) : e.choose x c = e.noteRooms x c := by
  simp only [Engine.choose, h]

theorem Engine.choose_claim (h : e.winner? x c = some w) :
    ((e.choose x c).chan c).claim = some { slot := w.slot, held := true } := by
  rw [Engine.choose_of_winner h]
  exact congrArg Channel.claim (Engine.chan_updChan (e.noteRooms x c) c
    fun ch => { ch with claim := some { slot := w.slot, held := true } })

end

/-- Settles O58: the score's bounds from those of urgency and cost, the winner as the first greatest of a filtered
list. -/
theorem winnerIsOldestOverdueOrBestScore : Obligations.WinnerIsOldestOverdueOrBestScore := by
  refine ⟨fun x e o => ⟨fun c plan => ?_, fun plan => ?_, fun cls target cylinders => ?_⟩, fun x e c =>
    ⟨Engine.winner?_isSome_iff, fun w h => ?_⟩⟩
  · rw [Engine.score_eq, Order.urgency, Engine.cost, plan, rushTerm_eq]
    simp only [planMax_side, Engine.distance, Order.driveOn]
    cases (e.drive ⟨c, o.pair⟩).cylinder <;> rfl
  · rw [Engine.score_eq, Order.urgency, Engine.cost, plan, rushTerm_eq]
    simp only [planMax_both, Engine.distance, Order.driveOn]
    cases (e.drive ⟨.A, o.pair⟩).cylinder <;> cases (e.drive ⟨.B, o.pair⟩).cylinder <;> rfl
  · have urgency := Order.urgency_le cls
    have cost := Engine.cost_le target cylinders
    rw [Engine.score_eq]
    constructor <;> omega
  · obtain ⟨el, rest⟩ := Engine.winner?_some h
    exact ⟨el, Engine.choose_claim h, rest⟩

end Sys2Proof.Machine

namespace Sys2Proof.Machine

/-! ### Plans and readiness (R34, R35) -/

theorem Engine.ready_eq (e : Engine) (d : Drive) : e.ready d = decide ((e.drive d).state = .ready) := by
  rw [Bool.eq_iff_iff, Engine.ready, beq_iff_eq, decide_eq_true_eq]

section
variable {e : Engine} {o : Order}

theorem Engine.attached_iff (e : Engine) (o : Order) :
    e.attached o = true ↔ (e.pairs.get o.pair).bound = true ∧ (e.pairs.get o.pair).mode = .attached := by
  simp only [Engine.attached, Bool.and_eq_true, beq_iff_eq]

theorem Engine.planOf_one (h : o.fields.pairCopy = false) :
    e.planOf o = (BySide.both false).set o.fields.drive.side true := by
  simp [Engine.planOf, h]

theorem Engine.planOf_mend (h : o.fields.pairCopy = true) (k : o.kind = .mend) :
    e.planOf o = BySide.both (e.ready (o.driveOn .A) && e.ready (o.driveOn .B)) := by
  simp [Engine.planOf, h, k]

theorem Engine.planOf_attached (h : o.fields.pairCopy = true) (k : o.kind ≠ .mend) (a : e.attached o = true) :
    e.planOf o = ⟨e.ready (o.driveOn .A), e.ready (o.driveOn .B)⟩ := by
  simp [Engine.planOf, h, k, a]

theorem Engine.planOf_detached (h : o.fields.pairCopy = true) (k : o.kind ≠ .mend) (a : e.attached o = false) :
    e.planOf o = (BySide.both false).set (e.pairs.get o.pair).kept true := by
  simp [Engine.planOf, h, k, a]

theorem Engine.planReady_iff :
    e.planReady o = true ↔ ∀ c, (e.planOf o).get c = true → e.ready (o.driveOn c) = true := by
  have side (p r : Bool) : (!p || r) = true ↔ (p = true → r = true) := by cases p <;> simp
  rw [Engine.planReady, Bool.and_eq_true, side, side]
  exact ⟨fun ⟨a, b⟩ c => by cases c <;> assumption, fun h => ⟨h .A, h .B⟩⟩

/-! ### The orders before an order (R37) -/

/-- Where each slot is held once, the orders before an order's slot are those before it in the list. -/
theorem Engine.earlier_of_split {before after : List Order} (split : e.held = before ++ o :: after)
    (once : (e.held.map Order.slot).Nodup) : e.earlier o.slot = before := by
  have others : ∀ a ∈ before, (!(a.slot == o.slot)) = true := by
    intro a ha
    rw [split, List.map_append, List.map_cons] at once
    have := (List.nodup_append.mp once).2.2 _ (List.mem_map_of_mem ha) _ List.mem_cons_self
    simpa using this
  rw [Engine.earlier, split, List.takeWhile_append_of_pos others]
  simp

theorem Engine.unfenced_iff {x : Front} {before after : List Order} (split : e.held = before ++ o :: after)
    (once : (e.held.map Order.slot).Nodup) : e.unfenced x o = true ↔ ∀ a ∈ before, a.fences x o = false := by
  rw [Engine.unfenced, Engine.earlier_of_split split once]
  simp

/-! ### What meets what (R37, R38) -/

theorem Drive.any_all_iff (p : Drive → Bool) : Drive.all.any p = true ↔ ∃ d, p d = true := by
  simp only [List.any_eq_true, Drive.mem_all, true_and]

theorem OrderFields.covers_iff (f : OrderFields) (d : Drive) :
    f.covers d = true ↔ f.drive = d ∨ (f.pairCopy = true ∧ f.drive.pair = d.pair) := by
  simp only [OrderFields.covers, Bool.or_eq_true, Bool.and_eq_true, beq_iff_eq]

theorem Order.fenceWrites_iff (o : Order) :
    o.fenceWrites = true ↔ o.fields.kind = .write ∨ o.fields.kind = .format ∨ o.fields.kind = .retire ∨
      o.fields.kind = .mend ∨ (o.fields.kind = .check ∧ o.fields.pairCopy = true) := by
  have kind : o.kind = o.fields.kind := rfl
  simp only [Order.fenceWrites, kind, Bool.or_eq_true, Bool.and_eq_true, beq_iff_eq]
  cases o.fields.kind <;> simp [Kind.writes]

/-- A position of an order's sectors: a FORMAT's are its whole track, a SEEK has none (R13, R38). -/
def Order.touches (x : Front) (o : Order) (position : Nat) : Prop :=
  let f := o.fields
  let r := x.record f.drive
  let track := (f.cylinder * r.surfaces + f.surface) * r.sectors
  (f.kind = .format ∧ track ≤ position ∧ position < track + r.sectors) ∨
  ((f.kind = .read ∨ f.kind = .write ∨ f.kind = .check ∨ f.kind = .retire) ∧
    track + (f.firstSector - r.firstSector) ≤ position ∧
    position < track + (f.firstSector - r.firstSector) + f.count)

theorem Order.touches_iff (x : Front) (o : Order) (position : Nat) :
    o.touches x position ↔
      o.sectorPos x 0 ≤ position ∧ position < o.sectorPos x 0 + o.sectorCount x := by
  have kind : o.kind = o.fields.kind := rfl
  cases hk : o.fields.kind <;>
    simp [Order.touches, Order.sectorPos, Order.sectorCount, Order.geometry, OrderFields.start, trackOf, kind, hk]

/-- Two runs of positions meet exactly when they have one in common. -/
theorem runs_meet_iff (p m q n : Nat) :
    0 < m ∧ 0 < n ∧ p < q + n ∧ q < p + m ↔ ∃ i, (p ≤ i ∧ i < p + m) ∧ q ≤ i ∧ i < q + n := by
  constructor
  · rintro ⟨hm, hn, hp, hq⟩
    refine ⟨max p q, ?_⟩
    omega
  · rintro ⟨i, h⟩
    omega

theorem Order.meets_iff (x : Front) (a b : Order) :
    a.meets x b = true ↔ ∃ position, a.touches x position ∧ b.touches x position := by
  simp only [Order.touches_iff]
  rw [← runs_meet_iff]
  simp only [Order.meets, Bool.and_eq_true, decide_eq_true_eq, and_assoc]

theorem Order.overlaps_iff (x : Front) (a b : Order) :
    a.overlaps x b = true ↔
      ((a.kind = .mend ∨ b.kind = .mend) ∧ a.fenceWrites = true ∧ b.fenceWrites = true) ∨
      (¬(a.kind = .mend ∨ b.kind = .mend) ∧ (a.fenceWrites = true ∨ b.fenceWrites = true) ∧ a.meets x b = true) := by
  unfold Order.overlaps
  split <;> rename_i h <;> simp [h]

theorem RosterState.fences_iff (s : RosterState) : s.fences = true ↔ s = .queued ∨ s = .boundWait ∨ s = .running := by
  cases s <;> simp [RosterState.fences]

theorem Order.fences_iff (x : Front) (a b : Order) :
    a.fences x b = true ↔ a.finish = none ∧ (a.state = .queued ∨ a.state = .boundWait ∨ a.state = .running) ∧
      (∃ d, a.covers d = true ∧ b.covers d = true) ∧ a.overlaps x b = true := by
  simp only [Order.fences, Order.shares, Drive.any_all_iff, Bool.and_eq_true, Option.isNone_iff_eq_none,
    RosterState.fences_iff, and_assoc]

end

/-- Settles O57: the tests one by one, by what each function of the choice unit says. -/
theorem eligibleOrdersPassTheTests : Obligations.EligibleOrdersPassTheTests := by
  refine ⟨fun x e c before after o split once => ⟨Engine.planOf_one, fun pair => ⟨fun kind => ?_, fun kind bound =>
    ⟨fun mode => ?_, fun mode => ?_⟩⟩, ?_⟩, fun x a b => ?_⟩
  · rw [Engine.planOf_mend pair kind, e.ready_eq, e.ready_eq]
    rfl
  · rw [Engine.planOf_attached pair kind ((e.attached_iff o).mpr ⟨bound, mode⟩), e.ready_eq, e.ready_eq]
    rfl
  · refine Engine.planOf_detached pair kind (Bool.eq_false_iff.mpr fun attached => ?_)
    have := ((e.attached_iff o).mp attached).2
    exact PairMode.noConfusion (mode.symm.trans this)
  · rw [Engine.eligible_iff, Engine.planReady_iff, Engine.unfenced_iff split once]
    simp only [Engine.ready_eq]
    rfl
  · rw [Order.fences_iff, Order.overlaps_iff]
    simp only [Order.covers, OrderFields.covers_iff, Order.fenceWrites_iff, Order.meets_iff]
    rfl

end Sys2Proof.Machine

namespace Sys2Proof.Machine

/-! ### The room note (R36, R64) -/

/-- An order is held back for room alone, and not yet noted. -/
def Engine.short (x : Front) (e : Engine) (c : Side) (o : Order) : Bool :=
  e.passesButRoom x o c && !e.hasRoom x o && !o.roomNote

/-- The engine when the orders that a test picks have had their room notes set. -/
def Engine.noted (e : Engine) (p : Order → Bool) : Engine :=
  { e with
    held := e.held.map fun o => if p o then o.roomNoted else o
    attention := if e.held.any p then e.attention ||| 0x040#10 else e.attention }

section
variable (x : Front) (e : Engine) (c : Side)

theorem Engine.hasRoom_iff (o : Order) :
    e.hasRoom x o = true ↔ e.roomNeed x o ≤ 32 - e.log.length - e.reserved := by
  rw [Engine.hasRoom, decide_eq_true_eq]
  rfl

theorem Engine.roomNeed_eq (o : Order) :
    e.roomNeed x o =
      if o.fields.pairCopy = true ∧ (o.kind.writes = true ∨ o.kind = .check) ∧
          (e.pairs.get o.pair).bound = true ∧ (e.pairs.get o.pair).mode = .attached
      then o.sectorCount x else 0 := by
  simp only [Engine.roomNeed, Order.needsRoom, Bool.and_eq_true, Bool.or_eq_true, beq_iff_eq, and_assoc]

variable {e}

theorem Engine.noteRoom_of_short {slot : Nat} {o : Order} (ho : e.order? slot = some o)
    (h : e.short x c o = true) : e.noteRoom x c slot = { e with
      held := e.held.map fun o' => if o'.slot == slot then o'.roomNoted else o'
      attention := e.attention ||| 0x040#10 } := by
  simp only [Engine.noteRoom, ho]
  exact if_pos h

theorem Engine.noteRoom_of_not_short {slot : Nat} {o : Order} (ho : e.order? slot = some o)
    (h : e.short x c o = false) : e.noteRoom x c slot = e := by
  simp only [Engine.noteRoom, ho]
  exact if_neg (Bool.eq_false_iff.mp h)

theorem Engine.noteRoom_of_none {slot : Nat} (ho : e.order? slot = none) : e.noteRoom x c slot = e := by
  simp only [Engine.noteRoom, ho]

/-! ### The room notes of a choice (R64) -/

theorem Engine.noted_congr {p q : Order → Bool} (h : ∀ o ∈ e.held, p o = q o) : e.noted p = e.noted q := by
  have held : (e.held.map fun o => if p o then o.roomNoted else o) =
      e.held.map fun o => if q o then o.roomNoted else o :=
    List.map_congr_left fun o mem => by simp only [h o mem]
  have any : e.held.any p = e.held.any q := by
    rw [Bool.eq_iff_iff, List.any_eq_true, List.any_eq_true]
    exact exists_congr fun o => and_congr_right fun mem => by rw [h o mem]
  simp only [Engine.noted, held, any]

theorem Engine.noted_of_none {p : Order → Bool} (h : ∀ o ∈ e.held, p o = false) : e.noted p = e := by
  rw [Engine.noted_congr h]
  simp [Engine.noted]

/-- One note, as the notes of the orders that a test picks. -/
theorem Engine.noteRoom_eq_noted (once : (e.held.map Order.slot).Nodup) (slot : Nat) :
    e.noteRoom x c slot = e.noted fun o => o.slot == slot && e.short x c o := by
  cases ho : e.order? slot with
  | none =>
    rw [Engine.noteRoom_of_none x c ho, Engine.noted_of_none fun o mem => ?_]
    have : o.slot ≠ slot := by simpa using List.find?_eq_none.mp ho o mem
    simp [this]
  | some o =>
    obtain ⟨mem, hs⟩ := Engine.order?_mem ho
    have only := Engine.order?_unique once ho
    cases h : e.short x c o with
    | false =>
      rw [Engine.noteRoom_of_not_short x c ho h, Engine.noted_of_none fun o' mem' => ?_]
      by_cases hs' : o'.slot = slot
      · simp [only o' mem' hs', h]
      · simp [hs']
    | true =>
      rw [Engine.noteRoom_of_short x c ho h, Engine.noted, if_pos (List.any_eq_true.mpr ⟨o, mem, by simp [hs, h]⟩)]
      have held : (e.held.map fun o' => if o'.slot == slot then o'.roomNoted else o') =
          e.held.map fun o' => if o'.slot == slot && e.short x c o' then o'.roomNoted else o' := by
        refine List.map_congr_left fun o' mem' => ?_
        by_cases hs' : o'.slot = slot
        · simp [only o' mem' hs', h]
        · simp [hs']
      rw [held]

/-- Room notes take part in no test but the note's own. -/
theorem Engine.short_noted (p : Order → Bool) (o : Order) : (e.noted p).short x c o = e.short x c o := by
  have unfenced : (e.noted p).unfenced x o = e.unfenced x o := by
    have slot : ((fun a : Order => !(a.slot == o.slot)) ∘ fun a => if p a then a.roomNoted else a) =
        fun a => !(a.slot == o.slot) := funext fun a => by
      simp only [Function.comp_apply]
      split <;> rfl
    have fences : ((fun a : Order => a.fences x o) ∘ fun a => if p a then a.roomNoted else a) =
        fun a => a.fences x o := funext fun a => by
      simp only [Function.comp_apply]
      split <;> rfl
    simp only [Engine.unfenced, Engine.earlier, Engine.noted, List.takeWhile_map, List.any_map, slot, fences]
  unfold Engine.short Engine.passesButRoom
  rw [unfenced]
  rfl

theorem Engine.short_roomNoted (o : Order) : e.short x c o.roomNoted = false := by
  simp [Engine.short, Order.roomNoted]

theorem Engine.noted_slots (p : Order → Bool) : (e.noted p).held.map Order.slot = e.held.map Order.slot := by
  simp only [Engine.noted, List.map_map]
  refine List.map_congr_left fun o _ => ?_
  simp only [Function.comp_apply]
  split <;> rfl

/-- Notes made one test after another are the notes of both. -/
theorem Engine.noted_noted (p q r : Order → Bool)
    (noted : ∀ o ∈ e.held, p o = true → q o.roomNoted = false ∧ r o = true)
    (other : ∀ o ∈ e.held, p o = false → q o = r o) : (e.noted p).noted q = e.noted r := by
  have held : ((e.noted p).noted q).held = (e.noted r).held := by
    simp only [Engine.noted, List.map_map]
    refine List.map_congr_left fun o mem => ?_
    simp only [Function.comp_apply]
    cases hp : p o
    · simp [other o mem hp]
    · simp [noted o mem hp]
  have any : (e.held.any r) = (e.held.any p || (e.noted p).held.any q) := by
    rw [Bool.eq_iff_iff]
    simp only [Engine.noted, Bool.or_eq_true, List.any_eq_true, List.any_map, Function.comp_apply]
    constructor
    · rintro ⟨o, mem, hr⟩
      cases hp : p o
      · exact .inr ⟨o, mem, by simpa [hp] using (other o mem hp).trans hr⟩
      · exact .inl ⟨o, mem, hp⟩
    · rintro (⟨o, mem, hp⟩ | ⟨o, mem, hq⟩)
      · exact ⟨o, mem, (noted o mem hp).2⟩
      · cases hp : p o
        · exact ⟨o, mem, (other o mem hp).symm.trans (by simpa [hp] using hq)⟩
        · exact ⟨o, mem, (noted o mem hp).2⟩
  have attention : ((e.noted p).noted q).attention = (e.noted r).attention := by
    show (if (e.noted p).held.any q then _ else _) = if e.held.any r then _ else _
    rw [any]
    cases hp : e.held.any p <;> cases hq : (e.noted p).held.any q <;> simp [Engine.noted, hp, BitVec.or_assoc]
  have frame : (e.noted p).noted q =
      { e.noted r with held := ((e.noted p).noted q).held, attention := ((e.noted p).noted q).attention } := rfl
  rw [frame, held, attention]

/-- The notes of the slots one after another are those of the orders in them that are short. -/
theorem Engine.foldl_noteRoom (slots : List Nat) : ∀ {e : Engine}, (e.held.map Order.slot).Nodup →
    slots.foldl (fun e slot => e.noteRoom x c slot) e = e.noted fun o => decide (o.slot ∈ slots) && e.short x c o := by
  induction slots with
  | nil =>
    intro e once
    exact (Engine.noted_of_none fun o _ => by simp).symm
  | cons slot slots ih =>
    intro e once
    rw [List.foldl_cons, Engine.noteRoom_eq_noted x c once, ih (by rwa [Engine.noted_slots])]
    refine Engine.noted_noted _ _ _ (fun o _ hp => ?_) fun o _ hp => ?_
    · obtain ⟨hs, h⟩ := Bool.and_eq_true_iff.mp hp
      rw [Engine.short_noted, Engine.short_roomNoted]
      simp_all
    · rw [Engine.short_noted]
      cases h : e.short x c o
      · simp
      · have : o.slot ≠ slot := by simpa [h] using hp
        simp [this]

theorem Engine.noteRooms_eq (once : (e.held.map Order.slot).Nodup) : e.noteRooms x c = e.noted (e.short x c) := by
  have all : ∀ o ∈ e.held, (decide (o.slot ∈ e.held.map Order.slot) && e.short x c o) = e.short x c o :=
    fun o mem => by simp [List.mem_map_of_mem (f := Order.slot) mem]
  rw [Engine.noteRooms, Engine.foldl_noteRoom x c _ once]
  exact Engine.noted_congr all

/-- Of the orders and the attention a choice leaves what its room notes make of them. -/
theorem Engine.choose_held (c : Side) : (e.choose x c).held = (e.noteRooms x c).held ∧
    (e.choose x c).attention = (e.noteRooms x c).attention := by
  cases h : e.winner? x c with
  | none => rw [Engine.choose_of_none h]; exact ⟨rfl, rfl⟩
  | some w => rw [Engine.choose_of_winner h]; exact ⟨rfl, rfl⟩

/-! ### A claim (R48, R54) -/

/-- The claim is taken off the channel. -/
def Engine.unclaim (e : Engine) (c : Side) : Engine := e.setChan c { e.chan c with claim := none }

variable {x c} {cl : Claim}

theorem Engine.unclaim_free : ((e.unclaim c).chan c).free = (e.chan c).free := by
  rw [Engine.unclaim, Engine.chan_setChan]
  rfl

theorem Engine.takeClaim_taken (h : (e.chan c).claim = some cl)
    (k : x.ctl ≠ .run ∨ (e.chan c).free = false ∨ cl.held = false ∨ e.order? cl.slot = none) :
    e.takeClaim x c = e.unclaim c := by
  have free : ((e.updChan c fun ch => { ch with claim := none }).chan c).free = (e.chan c).free :=
    Engine.unclaim_free
  have order : (e.updChan c fun ch => { ch with claim := none }).order? cl.slot = e.order? cl.slot := rfl
  simp only [Engine.takeClaim, h, free, order]
  split
  · rename_i ok
    obtain ⟨run, free, held⟩ := ok
    rcases k with k | k | k | k
    · exact absurd run k
    · simp [k] at free
    · simp [k] at held
    · rw [k]
      rfl
  · rfl

theorem Engine.takeClaim_answered (h : (e.chan c).claim = some cl) (run : x.ctl = .run)
    (free : (e.chan c).free = true) (held : cl.held = true) {o : Order} (ho : e.order? cl.slot = some o) :
    e.takeClaim x c =
      if (e.unclaim c).eligible x o c then
        if ((e.unclaim c).planOf o).a && ((e.unclaim c).planOf o).b then (e.unclaim c).grantTwo x c o
        else (e.unclaim c).grantOne x c o
      else (e.unclaim c).noteRoom x c cl.slot := by
  have unclaim : (e.updChan c fun ch => { ch with claim := none }) = e.unclaim c := rfl
  have order : (e.unclaim c).order? cl.slot = some o := ho
  simp only [Engine.takeClaim, h, unclaim, order, run, Engine.unclaim_free, free, held, and_self, if_true]
  split
  · rename_i el
    rw [Engine.noteRoom_of_eligible x order el]
  · rfl

/-- What leaves with an order, and what the claims in flight learn (R48). -/
theorem Engine.leaveList_order? {slot : Nat} {o : Order} (ho : e.order? slot = some o) (hf : o.finish.isSome = true) :
    (e.leaveList x slot).order? slot = none := by
  rw [Engine.leaveList_eq x ho hf, Engine.order?, (Engine.writeHeld_only x _ o.fields _).1]
  exact List.find?_eq_none.mpr fun o' mem => by simpa using (List.mem_filter.mp mem).2

theorem Engine.leaveList_claim {slot : Nat} {o : Order} (ho : e.order? slot = some o) (hf : o.finish.isSome = true) :
    ((e.leaveList x slot).chan c).claim = (e.chan c).claim.map (Claim.orderLeft slot) := by
  rw [Engine.leaveList_eq x ho hf, Engine.chan, (Engine.writeHeld_only x _ o.fields _).2.2.1]
  exact congrArg Channel.claim
    (Engine.chan_dropClaims { e with held := e.held.filter fun o => !(o.slot == slot) } slot c)

theorem Claim.orderLeft_eq (slot : Nat) (cl : Claim) :
    cl.orderLeft slot = { cl with held := cl.held && !(cl.slot == slot) } := by
  rw [← Claim.orderLeft_held, ← Claim.orderLeft_slot slot]

end

theorem exec_claim {s : State} (c : Side) (active : s.front.ctl = .run ∨ s.front.ctl = .draining) :
    exec (.claim c) s = .next (State.settle { s with engine := s.engine.takeClaim s.front c }) := by
  show Host.Outcome.next (s.engineEvent _) = _
  rw [State.engineEvent, if_pos (s.front.active_iff.mpr active)]

/-- Settles O40: the claim's cases, the claims that learn of a leaving, and the notes as one change of the list. -/
theorem claimIsGrantedOrTaken : Obligations.ClaimIsGrantedOrTaken := by
  refine ⟨fun s c cl active h => ⟨fun k => ?_, fun run free held o ho => ⟨fun el => ?_, fun el plan => ?_,
    fun el plan => ?_⟩⟩, fun x e c slot o ho hf => ?_, fun x e c => ⟨fun o => ⟨e.hasRoom_iff x o, e.roomNeed_eq x o⟩,
    fun slot o ho => ⟨Engine.noteRoom_of_short x c ho, Engine.noteRoom_of_not_short x c ho⟩, fun once => ?_⟩⟩
  · rw [exec_claim c active, Engine.takeClaim_taken h (k.imp_left fun d => by simp [d])]
    rfl
  · rw [exec_claim c active, Engine.takeClaim_answered h run free held ho]
    exact congrArg (fun e => Host.Outcome.next (State.settle { s with engine := e })) (if_neg (Bool.eq_false_iff.mp el))
  · rw [exec_claim c active, Engine.takeClaim_answered h run free held ho]
    refine congrArg (fun e => Host.Outcome.next (State.settle { s with engine := e })) ((if_pos el).trans (if_neg ?_))
    exact Bool.eq_false_iff.mp plan
  · rw [exec_claim c active, Engine.takeClaim_answered h run free held ho]
    exact congrArg (fun e => Host.Outcome.next (State.settle { s with engine := e })) ((if_pos el).trans (if_pos plan))
  · have decided := Option.isSome_iff_ne_none.mpr hf
    refine ⟨Engine.leaveList_order? ho decided, fun none => ?_, fun cl some => ?_⟩
    · rw [Engine.leaveList_claim ho decided, none]
      rfl
    · rw [Engine.leaveList_claim ho decided, some]
      exact congrArg Option.some (cl.orderLeft_eq slot)
  · obtain ⟨held, attention⟩ := e.choose_held x c
    rw [held, attention, Engine.noteRooms_eq x c once]
    exact ⟨rfl, rfl⟩

end Sys2Proof.Machine

namespace Sys2Proof.Machine

/-! ### The plan and the reservation of a grant (R36, R49, R63) -/

/-- The request that writes the phase RUNNING of a slot. -/
def runningWrite (x : Front) (slot : Nat) : Request :=
  { kind := .slotWrite
    words := [{ addr := x.areaBase.toNat * 256 + (0x240 + 32 * slot), data := some 3 }], notice := none }

/-- What is written of the reserved total where a grant takes room. -/
def takenWrites (x : Front) (reserved need : Nat) : List Request :=
  if need = 0 then [] else
    [{ kind := .headerWrite
       words := [{ addr := x.areaBase.toNat * 256 + 0x22, data := some (BitVec.ofNat 16 reserved) }], notice := none }]

section
variable (x : Front) (e : Engine)

theorem Engine.writeTaken_eq (n : Nat) :
    e.writeTaken x n = { e with port := { e.port with queue := e.port.queue ++ takenWrites x e.reserved n } } := by
  unfold Engine.writeTaken takenWrites
  split
  · simp
  · rfl

/-- The engine with the plan of a grant fixed in the order's record and its reservation taken. -/
def Engine.planned (e : Engine) (o : Order) (f : Order → Order) : Engine :=
  { e with
    held := e.held.map fun o' => if o'.slot == o.slot then o.planned x e f o' else o'
    reserved := e.reserved + e.roomNeed x o
    port := { e.port with queue := e.port.queue ++ takenWrites x (e.reserved + e.roomNeed x o) (e.roomNeed x o) } }

variable {e} {o : Order} {f : Order → Order}

theorem Engine.planned_eq (slots : ∀ o, (f o).slot = o.slot) :
    (e.planRun x o f).reserve x o.slot (e.roomNeed x o) = e.planned x o f := by
  rw [Engine.planRun_reserve x e o slots, Engine.writeTaken_eq]
  rfl

theorem Engine.planned_order? (ho : e.order? o.slot = some o) (slots : ∀ o, (f o).slot = o.slot) :
    (e.planned x o f).order? o.slot = some (o.planned x e f o) := by
  have := e.order?_updOrder o.slot (o.planned x e f) fun o' => slots o'
  rw [ho] at this
  exact this

/-- A run is its plan with the phase RUNNING written. -/
theorem Engine.run_eq (plan : BySide Bool) : e.run x o plan =
    { e.planned x o (Order.begun plan) with
      port := { (e.planned x o (Order.begun plan)).port with
        queue := (e.planned x o (Order.begun plan)).port.queue ++ [runningWrite x o.slot] } } := by
  rw [← Engine.planned_eq x (f := Order.begun plan) fun _ => rfl]
  rfl

theorem Engine.run_order? (ho : e.order? o.slot = some o) (plan : BySide Bool) :
    (e.run x o plan).order? o.slot = some (o.planned x e (Order.begun plan) o) := by
  rw [Engine.run_eq]
  exact Engine.planned_order? x ho fun _ => rfl

theorem Engine.run_frame (plan : BySide Bool) : (∀ c, (e.run x o plan).chan c = e.chan c) ∧
    (e.run x o plan).log = e.log ∧ (e.run x o plan).pairs = e.pairs ∧
    (e.run x o plan).reserved = e.reserved + e.roomNeed x o ∧
    (e.run x o plan).port.queue.getLast? = some (runningWrite x o.slot) := by
  rw [Engine.run_eq]
  exact ⟨fun _ => rfl, rfl, rfl, rfl, by simp⟩

/-! ### Binding -/

theorem Engine.bind_chan (e : Engine) (c : Side) (slot : Nat) :
    ((e.bind c slot).chan c).order = some slot ∧ ((e.bind c slot).chan c).claim = none := by
  unfold Engine.bind
  rw [Engine.chan_updChan]
  exact ⟨rfl, rfl⟩

theorem Engine.bind_chan_other (e : Engine) (c : Side) (slot : Nat) : (e.bind c slot).chan c.other = e.chan c.other :=
  Engine.chan_updChan_other e c _

/-- Both channels are bound. -/
theorem Engine.bind_both (e : Engine) (c : Side) (slot : Nat) (c' : Side) :
    (((e.bind c slot).bind c.other slot).chan c').order = some slot ∧
      (((e.bind c slot).bind c.other slot).chan c').claim = none := by
  by_cases h : c' = c.other
  · rw [h]
    exact Engine.bind_chan _ _ _
  · obtain rfl : c' = c := by simpa using Side.eq_other_of_ne h
    have same := Engine.bind_chan_other (e.bind c' slot) c'.other slot
    rw [Side.other_other] at same
    rw [same]
    exact Engine.bind_chan _ _ _

/-! ### The turn of a MEND (R75) -/

/-- What a turn depends on. -/
theorem Engine.fixTurn_congr {e' : Engine} (log : e'.log = e.log) (pairs : e'.pairs = e.pairs) (o : Order) :
    e'.fixTurn x o = e.fixTurn x o := by
  unfold Engine.fixTurn Engine.attached
  rw [log, pairs]

theorem Engine.fixTurn_empty (a : e.attached o = true) (h : (e.log.filter fun l => l.pair == o.pair) = []) :
    e.fixTurn x o = none := by
  have ours : e.log.filter (LogEntry.ofPair o.pair) = [] := h
  simp only [Engine.fixTurn, a, ours, if_true]

theorem Engine.fixTurn_attached (a : e.attached o = true) {l : LogEntry}
    (h : (e.log.filter fun l => l.pair == o.pair).head? = some l) :
    e.fixTurn x o = some
      { track := trackOf (o.geometry x) l.place.cylinder l.place.surface
        set := ((e.log.filter fun l => l.pair == o.pair).filter fun m =>
            trackOf (o.geometry x) m.place.cylinder m.place.surface ==
              trackOf (o.geometry x) l.place.cylinder l.place.surface).map fun m => (m.place.sector, m.good) } := by
  obtain ⟨rest, ours⟩ := List.head?_eq_some_iff.mp h
  have ours' : e.log.filter (LogEntry.ofPair o.pair) = l :: rest := ours
  rw [ours]
  simp only [Engine.fixTurn, a, ours', if_true]

theorem Engine.fixTurn_detached (a : e.attached o = false) :
    e.fixTurn x o = some
      { track := o.cursor.getD 0
        set := (List.range (o.geometry x).sectors).map fun k =>
          ((o.geometry x).firstSector + k, (e.pairs.get o.pair).kept) } := by
  simp only [Engine.fixTurn, a]
  rfl

/-! ### The waiting channel at the join (R104, R114; log 64) -/

variable {w : Side} {slot : Nat}

theorem Engine.serveWaiter_order? (ho : e.order? o.slot = some o) :
    (e.serveWaiter w o.slot).order? o.slot = some
      { o with served := if (e.chan w).selectedWell then o.served.set w true else o.served } := by
  unfold Engine.serveWaiter
  split
  · rw [Engine.markServed, Engine.order?_updOrder _ _ _ fun _ => by rfl, ho]
    rfl
  · exact ho

/-- The waiting channel holds the order, and has nothing put off. -/
structure Engine.Joins (e : Engine) (w : Side) (o : Order) : Prop where
  found : e.order? o.slot = some o
  order : (e.chan w).order = some o.slot
  begun : (e.chan w).deferred = none

theorem Engine.Joins.orderOf? (h : e.Joins w o) : e.orderOf? w = some o := by
  rw [Engine.orderOf?, h.order]
  exact h.found

theorem Engine.joinWaiter_failed (h : e.Joins w o) {code : FinishCode} (hc : (e.chan w).heldFailure = some code) :
    e.joinWaiter x w o.slot = e.failSide x w code := by
  simp [Engine.joinWaiter, h.orderOf?, h.order, h.begun, hc]

/-- The waiting channel stands, or is on its way, at the order's first track. -/
def Engine.standsAt (e : Engine) (w : Side) (o : Order) : Prop :=
  (e.chan w).positioning.target = o.firstTrack x / (o.geometry x).surfaces ∧
    (e.chan w).positioning.surface = o.firstTrack x % (o.geometry x).surfaces

theorem Engine.standsAt_iff : e.standsAt x w o ↔
    ((e.chan w).positioning.target == trackCylinder (o.geometry x) (o.firstTrack x) &&
      (e.chan w).positioning.surface == trackSurface (o.geometry x) (o.firstTrack x)) = true := by
  simp only [Bool.and_eq_true, beq_iff_eq]
  rfl

theorem Engine.joinWaiter_holding (h : e.Joins w o) (hf : (e.chan w).heldFailure = none)
    (act : (e.chan w).act = .holding) (stopping : (e.chan w).stopping = false) :
    (e.standsAt x w o → e.joinWaiter x w o.slot = if o.kind.loadsHead then e.startSide x w o else e.release x w) ∧
    (¬e.standsAt x w o → e.joinWaiter x w o.slot = (e.enter x w .positioning).startPositioning x w .start
      (o.firstTrack x / (o.geometry x).surfaces) (o.firstTrack x % (o.geometry x).surfaces) false) := by
  rw [Engine.standsAt_iff]
  constructor <;> intro stands
  · simp [Engine.joinWaiter, h.orderOf?, h.order, h.begun, hf, act, stopping, stands]
  · simp [Engine.joinWaiter, h.orderOf?, h.order, h.begun, hf, act, stopping, stands]
    rfl

/-- A wait of positioning in hand. -/
def Act.awaitsTrack (a : Act) : Prop := a = .settling ∨ a = .loading ∨ ∃ n, a = .confirming n

/-- The channel goes on in POSITIONING with its positioning as given. -/
def Engine.goesOn (e : Engine) (w : Side) (p : Positioning) : Engine :=
  (e.enter x w .positioning).setChan w { e.chan w with state := .positioning, positioning := p }

theorem Engine.goesOn_eq (f : Positioning → Positioning) :
    (e.enter x w .positioning).updPositioning w f = e.goesOn x w (f (e.chan w).positioning) := by
  unfold Engine.updPositioning Engine.updChan Engine.goesOn
  rw [Engine.enter_chan]

theorem Engine.joinWaiter_waiting (h : e.Joins w o) (hf : (e.chan w).heldFailure = none)
    (act : (e.chan w).act.awaitsTrack) (stopping : (e.chan w).stopping = false) :
    (e.standsAt x w o → e.joinWaiter x w o.slot = e.goesOn x w { (e.chan w).positioning with why := .start }) ∧
    (¬e.standsAt x w o → e.joinWaiter x w o.slot = (e.enter x w .positioning).startPositioning x w .start
      (o.firstTrack x / (o.geometry x).surfaces) (o.firstTrack x % (o.geometry x).surfaces) false) := by
  rw [Engine.standsAt_iff, ← Engine.goesOn_eq x fun p => { p with why := .start }]
  constructor <;> intro stands
  · rcases act with act | act | ⟨n, act⟩ <;>
      simp [Engine.joinWaiter, h.orderOf?, h.order, h.begun, hf, act, stands]
  · rcases act with act | act | ⟨n, act⟩ <;>
      (simp [Engine.joinWaiter, h.orderOf?, h.order, h.begun, hf, act, stopping, stands]; rfl)

theorem Engine.joinWaiter_stepping (h : e.Joins w o) (hf : (e.chan w).heldFailure = none) {home : Bool}
    (act : (e.chan w).act = .stepping home) :
    e.joinWaiter x w o.slot = e.goesOn x w { (e.chan w).positioning with
      why := .start, target := o.firstTrack x / (o.geometry x).surfaces,
      surface := o.firstTrack x % (o.geometry x).surfaces } := by
  rw [← Engine.goesOn_eq x fun p => { p with
      why := .start, target := o.firstTrack x / (o.geometry x).surfaces,
      surface := o.firstTrack x % (o.geometry x).surfaces }]
  simp [Engine.joinWaiter, h.orderOf?, h.order, h.begun, hf, act]
  rfl

/-! ### The grants and the takeover (R49, R50, R52) -/

/-- The engine of a takeover before the channels go on. -/
def Engine.takenOver (e : Engine) (j : Side) (slot : Nat) : Engine :=
  ((e.updOrder slot fun o => { o with state := .running, waiter := none }).writePhase x slot phaseRunning
    none).bind j slot

theorem Engine.takenOver_order (ho : (e.chan w.other).order = some slot) (c : Side) :
    ((e.takenOver x w slot).chan c).order = some slot := by
  by_cases h : c = w
  · rw [h]
    exact (Engine.bind_chan _ _ _).1
  · rw [Side.eq_other_of_ne h]
    exact (congrArg Channel.order (Engine.bind_chan_other _ _ _)).trans ho

theorem Engine.takenOver_order? (ho : e.order? o.slot = some o) (j : Side) :
    (e.takenOver x j o.slot).order? o.slot = some { o with state := .running, waiter := none } := by
  have := e.order?_updOrder o.slot (fun o => { o with state := .running, waiter := none }) fun _ => rfl
  rw [ho] at this
  exact this

theorem Engine.takeover_eq (j : Side) : e.takeover x j o =
    let joined (e : Engine) : Engine :=
      ((e.serveWaiter j.other o.slot).startOrDefer x j .positioning).joinWaiter x j.other o.slot
    if o.kind = .mend then
      match e.fixTurn x o with
      | none => (((e.takenOver x j o.slot).unbind j).decideFinish x o.slot .ok false).freeWaiter x j.other o.slot
      | some t => joined ((e.takenOver x j o.slot).setTurn o t)
    else joined (e.takenOver x j o.slot) := rfl

theorem Engine.grantOne_eq (c : Side) : e.grantOne x c o =
    (((e.run x o ((BySide.both false).set c true)).bind c o.slot).leaveOut x o.slot c.other).startOrDefer x c
      .positioning := rfl

/-- The engine of a grant of both sides, both channels bound. -/
def Engine.boundBoth (e : Engine) (c : Side) (o : Order) : Engine :=
  ((e.run x o (BySide.both true)).bind c o.slot).bind c.other o.slot

theorem Engine.fixTurn_boundBoth (c : Side) : (e.boundBoth x c o).fixTurn x o = e.fixTurn x o := by
  obtain ⟨-, log, pairs, -⟩ := Engine.run_frame x (e := e) (o := o) (BySide.both true)
  exact Engine.fixTurn_congr x log pairs o

theorem Engine.grantTwo_free {c : Side} (free : (e.chan c.other).free = true) : e.grantTwo x c o =
    if o.kind = .mend then
      match (e.boundBoth x c o).fixTurn x o with
      | none => (((e.boundBoth x c o).unbind c).unbind c.other).decideFinish x o.slot .ok false
      | some t => (((e.boundBoth x c o).setTurn o t).startIfHeld x c o.slot).startIfHeld x c.other o.slot
    else ((e.boundBoth x c o).startIfHeld x c o.slot).startIfHeld x c.other o.slot :=
  if_pos free

theorem Engine.grantTwo_busy {c : Side} (busy : (e.chan c.other).free = false) : e.grantTwo x c o =
    ((e.planned x o (Order.boundTo c)).bind c o.slot).startOrDefer x c .partnerWait := by
  rw [← Engine.planned_eq x (f := Order.boundTo c) fun _ => rfl]
  exact if_neg (Bool.eq_false_iff.mp busy)

end

/-- Settles O41: the engine after plan, reservation, phase and binding is written out, and what each grant and the
takeover do from there. -/
theorem grantsAndTakeoversBindTheOrder : Obligations.GrantsAndTakeoversBindTheOrder := by
  intro x e c o ho
  refine ⟨e.attached_iff o, ?_, fun free => ?_, fun busy => ?_, fun j hj => ?_, fun w => Engine.serveWaiter_order? ho,
    fun w order begun => ?_, fun attached => ?_, fun detached => ?_⟩
  · obtain ⟨chans, -, -, reserved, last⟩ := Engine.run_frame x (e := e) (o := o) ((BySide.both false).set c true)
    refine ⟨_, Engine.grantOne_eq x c, (Engine.bind_chan _ _ _).1, (Engine.bind_chan _ _ _).2, ?_,
      Engine.run_order? x ho _, reserved, last⟩
    exact (Engine.bind_chan_other _ _ _).trans (chans c.other)
  · obtain ⟨chans, -, -, reserved, last⟩ := Engine.run_frame x (e := e) (o := o) (BySide.both true)
    refine ⟨e.boundBoth x c o, fun kind => ?_, fun kind t turn => ?_, fun kind turn => ?_, Engine.bind_both _ c o.slot,
      Engine.run_order? x ho _, reserved, last⟩
    · rw [Engine.grantTwo_free x free, if_neg kind]
    · rw [Engine.grantTwo_free x free, if_pos kind, Engine.fixTurn_boundBoth, turn]
    · rw [Engine.grantTwo_free x free, if_pos kind, Engine.fixTurn_boundBoth, turn]
  · exact ⟨_, Engine.grantTwo_busy x busy, (Engine.bind_chan _ _ _).1, (Engine.bind_chan _ _ _).2,
      Engine.bind_chan_other _ _ _, Engine.planned_order? x ho fun _ => rfl, rfl, rfl⟩
  · refine ⟨e.takenOver x j o.slot, Engine.takenOver_order? x ho j, Engine.takenOver_order x hj,
      (Engine.bind_chan _ _ _).2, Engine.bind_chan_other _ _ _, rfl, rfl, fun kind => ?_, fun kind t turn => ?_,
      fun kind turn => ?_⟩
    · rw [Engine.takeover_eq, if_neg kind]
    · rw [Engine.takeover_eq, if_pos kind, turn]
    · rw [Engine.takeover_eq, if_pos kind, turn]
  · have joins : e.Joins w o := ⟨ho, order, begun⟩
    refine ⟨fun code hc => Engine.joinWaiter_failed x joins hc, fun hf act stopping target surface =>
      (Engine.joinWaiter_holding x joins hf act stopping).1 ⟨target, surface⟩, fun hf stopping =>
      ⟨fun waits stands => (Engine.joinWaiter_waiting x joins hf waits stopping).1 stands, fun act stands => ?_,
        fun ⟨home, act⟩ => Engine.joinWaiter_stepping x joins hf act⟩⟩
    rcases act with waits | act
    · exact (Engine.joinWaiter_waiting x joins hf waits stopping).2 stands
    · exact (Engine.joinWaiter_holding x joins hf act stopping).2 stands
  · have a := (e.attached_iff o).mpr attached
    exact ⟨Engine.fixTurn_empty x a, fun l hl => Engine.fixTurn_attached x a hl⟩
  · exact Engine.fixTurn_detached x (Bool.eq_false_iff.mpr fun a => detached ((e.attached_iff o).mp a))

end Sys2Proof.Machine

namespace Sys2Proof.Machine

/-! ### Age ticks (R40, R41, R115, R157) -/

theorem RosterState.ages_iff (s : RosterState) : s.ages = true ↔ s = .queued ∨ s = .boundWait := by
  cases s <;> simp [RosterState.ages]

theorem Order.ageTick_eq (o : Order) : o.ageTick =
    { o with age := if o.state = .queued ∨ o.state = .boundWait then min 255 (o.age + 1) else o.age } := by
  unfold Order.ageTick
  by_cases h : o.state = .queued ∨ o.state = .boundWait
  · rw [if_pos ((RosterState.ages_iff _).mpr h), if_pos h]
  · rw [if_neg (mt (RosterState.ages_iff _).mp h), if_neg h]

theorem ageTimers_drive (t : ByDrive Timer) (d : Drive) : (ageTimers t).drive d = (t.drive d).ageTick := by
  obtain ⟨c, p⟩ := d
  cases c <;> cases p <;> rfl

theorem Timer.ageTick_of_not_running {t : Timer} (h : ∀ n, t ≠ .running n) : t.ageTick = t := by
  cases t with
  | running n => exact absurd rfl (h n)
  | stopped => rfl
  | pending => rfl

theorem Survey.ageTick_of_waits {v : Survey} (next : v.next ≠ none) (step : v.step = none) :
    v.ageTick = { v with waiting := min 10 (v.waiting + 1) } :=
  if_pos (by simp [Survey.waits, step, Option.isSome_iff_ne_none.mpr next])

theorem Survey.ageTick_of_not_waits {v : Survey} (h : v.next = none ∨ v.step ≠ none) : v.ageTick = v :=
  if_neg (by rcases h with h | h <;> simp [Survey.waits, h])

theorem execAgeTick_of_idle {s : State} (run : s.front.ctl ≠ .run) (draining : s.front.ctl ≠ .draining) :
    exec .ageTick s = .next s := by
  have idle : ¬s.front.active = true := fun h => ((Front.active_iff _).mp h).elim run draining
  show execAgeTick s = _
  rw [execAgeTick, if_neg idle]

/-- The engine after an age tick. -/
def Engine.aged (e : Engine) (run : Bool) : Engine :=
  { e with
    held := e.held.map Order.ageTick, timers := ageTimers e.timers,
    survey := if run then e.survey.ageTick else e.survey }

theorem execAgeTick_of_active {s : State} (h : s.front.ctl = .run ∨ s.front.ctl = .draining) :
    exec .ageTick s = .next { s with engine := s.engine.aged (decide (s.front.ctl = .run)) } := by
  show execAgeTick s = _
  rw [execAgeTick, if_pos ((Front.active_iff _).mpr h)]
  simp only [Engine.aged, decide_eq_true_eq]

/-! ### Head unload (R115, R119) -/

/-- A row of the engine in RUN or DRAINING. -/
theorem State.engineEvent_of_active {s : State} (h : s.front.ctl = .run ∨ s.front.ctl = .draining)
    (f : Front → Engine → Engine) :
    (Host.Outcome.next (s.engineEvent f) : Result) =
      .next (State.settle { s with engine := f s.front s.engine }) := by
  rw [State.engineEvent, if_pos ((Front.active_iff _).mpr h)]

section
variable {x : Front} {e : Engine} {d : Drive}

theorem Engine.unloadExpiry_surveyed (h : e.timers.drive d = .running 0)
    (k : (e.chan d.side).state = .surveyStep ∧ (e.chan d.side).selected = some d.pair) :
    e.unloadExpiry x d = ((e.setChan d.side { e.chan d.side with headLoad := false }).setTimer d .stopped).updDrive
      x d fun k => { k with loaded := false } := by
  unfold Engine.unloadExpiry
  dsimp only
  rw [if_pos h, if_pos k]
  rfl

theorem Engine.unloadExpiry_free (h : e.timers.drive d = .running 0)
    (k : ¬((e.chan d.side).state = .surveyStep ∧ (e.chan d.side).selected = some d.pair))
    (free : (e.chan d.side).free = true) (touch : (e.chan d.side).touch = none) :
    e.unloadExpiry x d = (e.setChan d.side
      { e.chan d.side with touch := some { pair := d.pair, first := false }, headLoad := false }).setTimer d
      .stopped := by
  unfold Engine.unloadExpiry
  dsimp only
  rw [if_pos h, if_neg k, if_pos ⟨free, Option.isNone_iff_eq_none.mpr touch⟩]
  rfl

theorem Engine.unloadExpiry_busy (h : e.timers.drive d = .running 0)
    (k : ¬((e.chan d.side).state = .surveyStep ∧ (e.chan d.side).selected = some d.pair))
    (busy : (e.chan d.side).free = false ∨ (e.chan d.side).touch ≠ none) :
    e.unloadExpiry x d = e.setTimer d .pending := by
  have idle : ¬((e.chan d.side).free = true ∧ (e.chan d.side).touch.isNone = true) := by
    rintro ⟨free, touch⟩
    rcases busy with busy | busy
    · exact Bool.noConfusion (free.symm.trans busy)
    · exact busy (Option.isNone_iff_eq_none.mp touch)
  unfold Engine.unloadExpiry
  dsimp only
  rw [if_pos h, if_neg k, if_neg idle]

/-- A change of a drive's record leaves the channels. -/
theorem Engine.updDrive_chan (d : Drive) (g : Knowledge → Knowledge) (c : Side) :
    (e.updDrive x d g).chan c = e.chan c := by
  obtain ⟨-, -, -, channels, -⟩ := Engine.updDrive_frame x e d g
  rw [Engine.chan, channels, Engine.chan]

variable {c : Side} {t : Touch}

/-- The engine when a touch has ended in RUN or DRAINING, before what was put off begins. -/
def Engine.untouched (x : Front) (e : Engine) (c : Side) (t : Touch) : Engine :=
  (e.setChan c { e.chan c with touch := none }).updDrive x ⟨c, t.pair⟩ fun k => { k with loaded := false }

theorem Engine.untouched_chan : (e.untouched x c t).chan c = { e.chan c with touch := none } := by
  rw [Engine.untouched, Engine.updDrive_chan, Engine.chan_setChan]

theorem Engine.touchEnd_eq (h : (e.chan c).touch = some t) :
    e.touchEnd x c = (e.untouched x c t).startDeferred x c := by
  simp only [Engine.touchEnd, h]
  rfl

theorem Engine.touchEnd_of_none (h : (e.chan c).touch = some t) (deferred : (e.chan c).deferred = none) :
    e.touchEnd x c = e.untouched x c t := by
  have none : ((e.untouched x c t).chan c).deferred = none := by rw [Engine.untouched_chan, deferred]
  rw [Engine.touchEnd_eq h]
  simp only [Engine.startDeferred, none]

theorem Engine.touchEnd_of_some (h : (e.chan c).touch = some t) {b : Begin} (deferred : (e.chan c).deferred = some b)
    (stopping : (e.chan c).stopping = false) :
    e.touchEnd x c =
      ((e.untouched x c t).updChan c fun ch => { ch with deferred := none }).start x c b := by
  have some : ((e.untouched x c t).chan c).deferred = some b := by rw [Engine.untouched_chan, deferred]
  have goes : (((e.untouched x c t).updChan c fun ch => { ch with deferred := none }).chan c).stopping = false := by
    rw [Engine.chan_updChan, Engine.untouched_chan]
    exact stopping
  rw [Engine.touchEnd_eq h]
  simp only [Engine.startDeferred, some, goes]
  rfl

theorem Engine.configTouchEnd_eq (h : (e.chan c).touch = some t) :
    e.configTouchEnd x c =
      Engine.configChannels x { (e.setChan c { e.chan c with touch := none }).changeDrive x ⟨c, t.pair⟩
        (fun k => { k with loaded := false }) with report := e.report.setDrive ⟨c, t.pair⟩ true } := by
  simp only [Engine.configTouchEnd, h]
  rfl

end

theorem exec_unloadTouchEnd_of_active {s : State} (c : Side) (h : s.front.ctl = .run ∨ s.front.ctl = .draining) :
    exec (.unloadTouchEnd c) s = .next (State.settle { s with engine := s.engine.touchEnd s.front c }) := by
  rw [← State.engineEvent_of_active h fun x e => e.touchEnd x c]
  show execUnloadTouchEnd c s = _
  unfold execUnloadTouchEnd
  rcases h with h | h <;> rw [h]

theorem exec_unloadTouchEnd_of_config {s : State} (c : Side) (h : s.front.ctl = .config ∨ s.front.ctl = .starting) :
    exec (.unloadTouchEnd c) s = .next (State.tryStart { s with engine := s.engine.configTouchEnd s.front c }) := by
  show execUnloadTouchEnd c s = _
  unfold execUnloadTouchEnd
  rcases h with h | h <;> rw [h]

/-- Settles O36: the tick's parts, the expiry by what the channel does, and the end of a touch by the state. -/
theorem ageTicksAndHeadUnloads : Obligations.AgeTicksAndHeadUnloads := by
  refine ⟨fun s => ⟨fun active => ?_, fun run draining => execAgeTick_of_idle run draining⟩,
    fun s d active running => ⟨fun surveyed => ?_, fun surveyed free touch => ?_, fun surveyed busy => ?_⟩,
    fun s c t touch => ⟨fun active => ⟨fun deferred => ?_, fun b deferred stopping => ?_⟩, fun config => ?_⟩⟩
  · refine ⟨_, execAgeTick_of_active active, rfl, ?_, fun d n h => ?_, fun d h => ?_, fun run next step => ?_,
      fun still => ?_⟩
    · exact List.map_congr_left fun o _ => o.ageTick_eq
    · exact (ageTimers_drive _ d).trans (congrArg Timer.ageTick h)
    · exact (ageTimers_drive _ d).trans (Timer.ageTick_of_not_running h)
    · exact (if_pos (decide_eq_true run)).trans (Survey.ageTick_of_waits next step)
    · by_cases run : s.front.ctl = .run
      · have still := still.resolve_left (by simp [run])
        exact (if_pos (decide_eq_true run)).trans (Survey.ageTick_of_not_waits still)
      · exact if_neg (by simpa using run)
  · exact (State.engineEvent_of_active active fun x e => e.unloadExpiry x d).trans
      (by rw [Engine.unloadExpiry_surveyed running surveyed])
  · exact (State.engineEvent_of_active active fun x e => e.unloadExpiry x d).trans
      (by rw [Engine.unloadExpiry_free running surveyed free touch])
  · exact (State.engineEvent_of_active active fun x e => e.unloadExpiry x d).trans
      (by rw [Engine.unloadExpiry_busy running surveyed busy])
  · rw [exec_unloadTouchEnd_of_active c active, Engine.touchEnd_of_none touch deferred]
    rfl
  · rw [exec_unloadTouchEnd_of_active c active, Engine.touchEnd_of_some touch deferred stopping]
    rfl
  · rw [exec_unloadTouchEnd_of_config c config, Engine.configTouchEnd_eq touch]

end Sys2Proof.Machine

namespace Sys2Proof.Machine

/-! ### What a free channel takes (R31, R52, R157) -/

section
variable {x : Front} {e : Engine} {c : Side} {d : Drive}

theorem Engine.takeNext_bound {o : Order} (h : e.boundFor? c = some o) :
    e.takeNext x c = (e.takeover x c o, true) := by
  simp only [Engine.takeNext, h]

/-- A free channel in RUN with no claim in flight is offered a survey step, and no bound order. -/
structure Engine.Offers (x : Front) (e : Engine) (c : Side) (d : Drive) : Prop where
  run : x.ctl = .run
  claim : (e.chan c).claim = none
  step : e.survey.step = none
  next : e.survey.next = some d
  side : d.side = c
  bound : e.boundFor? c = none

theorem Engine.Offers.offered? (h : e.Offers x c d) : e.offered? c = some d := by
  simp [Engine.offered?, h.step, h.next, h.side]

theorem Engine.takeNext_patient (h : e.Offers x c d) (waited : 10 ≤ e.survey.waiting) :
    e.takeNext x c = (e.takeStep x c d, true) := by
  have waited : Config.surveyPatience ≤ e.survey.waiting := waited
  simp [Engine.takeNext, h.bound, h.run, h.claim, h.offered?, waited]

theorem Engine.takeNext_chooses (h : e.Offers x c d) (waits : e.survey.waiting < 10) :
    e.takeNext x c =
      if ((e.choose x c).chan c).claim = none then ((e.choose x c).takeStep x c d, true)
      else (e.choose x c, false) := by
  have waits : ¬Config.surveyPatience ≤ e.survey.waiting := Nat.not_le.mpr waits
  cases hc : ((e.choose x c).chan c).claim <;>
    simp [Engine.takeNext, h.bound, h.run, h.claim, h.offered?, waits, hc]

/-! ### The end of a survey step (R158, R159) -/

/-- The stage of a survey step has its time out. -/
theorem Engine.surveyTimeout_eq {st : SurveyStage} {n : Nat} (h : (e.chan c).act = .surveying st n) :
    e.surveyTimeout x c =
      if 3 ≤ n then (e.setChan c { e.chan c with act := .surveying .over n }).endSurveyStep x c
      else e.setChan c { e.chan c with act := .surveying .over n } := by
  have set : e.setAct c (.surveying .over n) = e.setChan c { e.chan c with act := .surveying .over n } := rfl
  simp only [Engine.surveyTimeout, h, set, Engine.trySurveyEnd, Engine.chan_setChan]

theorem Engine.surveyTimeout_of_not (h : ∀ st n, (e.chan c).act ≠ .surveying st n) : e.surveyTimeout x c = e := by
  unfold Engine.surveyTimeout
  split
  · exact absurd ‹_› (h _ _)
  · rfl

/-- The notice that goes with the status record of a step's end. -/
def Survey.stepNotice (v : Survey) (d : Drive) : Option Notice :=
  if v.lastStep d then some .surveyDone else none

/-- The record of the drive that a survey step lets go of (R104, R159). -/
def Knowledge.surveyed (k : Knowledge) (round : BitVec 6) : Knowledge :=
  { k with surveyRound := some round, sampleRun := 0, lastSample := none, timing := false }

/-- What a survey step's deselection makes of the drive, the timers and the port (R104, R115). -/
theorem Engine.deselect_survey {p : PairId} (h : (e.chan c).selected = some p) (n : Option Notice) :
    (e.deselect x c true n).drives = e.drives.setDrive ⟨c, p⟩
        { e.drive ⟨c, p⟩ with sampleRun := 0, lastSample := none, timing := false } ∧
      (e.deselect x c true n).timers = e.timers ∧
      ∃ r ∈ (e.deselect x c true n).port.queue, r.kind = .statusWrite ∧ r.notice = n := by
  simp only [Engine.deselect, h, if_true]
  exact ⟨rfl, rfl, _, List.mem_append_right _ (List.mem_singleton_self _), rfl, rfl⟩

/-- What the return to IDLE leaves; requests already made stay. -/
theorem Engine.toIdle_frame (c : Side) : (e.toIdle x c).drives = e.drives ∧
    ∀ r ∈ e.port.queue, r ∈ (e.toIdle x c).port.queue := by
  unfold Engine.toIdle Engine.enter
  split
  · exact ⟨rfl, fun _ h => h⟩
  · exact ⟨rfl, fun _ h => List.mem_append_left _ h⟩

/-- The engine with the survey round of a drive recorded. -/
def Engine.roundNoted (x : Front) (e : Engine) (d : Drive) : Engine :=
  e.setDrive d { e.drive d with surveyRound := some x.round }

/-- The engine when the survey step on a drive has ended, before the unit moves on. -/
def Engine.stepLeft (x : Front) (e : Engine) (d : Drive) : Engine :=
  ((e.roundNoted x d).deselect x d.side true (e.survey.stepNotice d)).toIdle x d.side

theorem Engine.stepLeft_onlyChannel : e.OnlyChannel d.side (e.stepLeft x d) :=
  ((Engine.setDrive_onlyChannel e d.side d _).trans (Engine.deselect_onlyChannel _ _ _ _ _)).trans
    (Engine.toIdle_onlyChannel _ _ _)

theorem Engine.stepLeft_chan : ((e.stepLeft x d).chan d.side).state = .idle ∧
    ((e.stepLeft x d).chan d.side).selected = none ∧ ((e.stepLeft x d).chan d.side).order = none := by
  rw [Engine.stepLeft, Engine.toIdle_chan, Engine.deselect_eq]
  exact ⟨rfl, rfl, rfl⟩

theorem Engine.stepLeft_drive (h : (e.chan d.side).selected = some d.pair) (d' : Drive) :
    (e.stepLeft x d).drive d' = if d' = d then (e.drive d).surveyed x.round else e.drive d' := by
  have selected : ((e.roundNoted x d).chan d.side).selected = some d.pair := h
  have left : (e.stepLeft x d).drives = ((e.roundNoted x d).setDrive d
      { (e.roundNoted x d).drive d with sampleRun := 0, lastSample := none, timing := false }).drives :=
    (Engine.toIdle_frame d.side).1.trans (Engine.deselect_survey selected _).1
  rw [Engine.drive, left, ← Engine.drive, Engine.drive_setDrive_eq]
  split
  · rw [Engine.roundNoted, Engine.drive_setDrive]
    rfl
  · exact e.drive_setDrive_of_ne _ ‹_›

theorem Engine.stepLeft_timers (h : (e.chan d.side).selected = some d.pair) :
    (e.stepLeft x d).timers = e.timers := by
  have selected : ((e.roundNoted x d).chan d.side).selected = some d.pair := h
  rw [Engine.stepLeft, Engine.toIdle_timers, (Engine.deselect_survey selected _).2.1]
  rfl

/-- The status record of a step's end is asked for, with its notice. -/
theorem Engine.stepLeft_request (h : (e.chan d.side).selected = some d.pair) :
    ∃ r ∈ (e.stepLeft x d).port.queue, r.kind = .statusWrite ∧ r.notice = e.survey.stepNotice d := by
  have selected : ((e.roundNoted x d).chan d.side).selected = some d.pair := h
  obtain ⟨r, mem, hr⟩ := (Engine.deselect_survey (x := x) selected (e.survey.stepNotice d)).2.2
  exact ⟨r, (Engine.toIdle_frame d.side).2 r mem, hr⟩

/-- What the survey unit's change leaves; requests already made stay. -/
theorem Engine.setSurvey_frame (v : Survey) : (e.setSurvey x v).survey = v ∧
    (∀ c, (e.setSurvey x v).chan c = e.chan c) ∧ (∀ d, (e.setSurvey x v).drive d = e.drive d) ∧
    (e.setSurvey x v).timers = e.timers ∧ (e.setSurvey x v).held = e.held ∧ (e.setSurvey x v).log = e.log ∧
    ∀ r ∈ e.port.queue, r ∈ (e.setSurvey x v).port.queue := by
  unfold Engine.setSurvey
  dsimp only
  split
  · exact ⟨rfl, fun _ => rfl, fun _ => rfl, rfl, rfl, rfl, fun _ h => List.mem_append_left _ h⟩
  · exact ⟨rfl, fun _ => rfl, fun _ => rfl, rfl, rfl, rfl, fun _ h => h⟩

theorem Survey.stepEnded_step (v : Survey) (d : Drive) : (v.stepEnded d).step = none := by
  unfold Survey.stepEnded
  dsimp only
  split
  · rfl
  · unfold Survey.endPass
    split
    · rfl
    · split <;> rfl

/-- The survey unit after the step on a drive: one of a survey already ended leaves it, the one in hand moves it on. -/
def Survey.afterEnd (v : Survey) (d : Drive) : Survey :=
  if (v.orphans.get d.side).isSome then { v with orphans := v.orphans.set d.side none } else v.stepEnded d

theorem Engine.endSurveyStep_eq (h : e.survey.stepOn d.side = some d) :
    e.endSurveyStep x d.side = (e.stepLeft x d).setSurvey x (e.survey.afterEnd d) := by
  have survey : (e.stepLeft x d).survey = e.survey := Engine.stepLeft_onlyChannel.survey
  have left : ((e.setDrive d { e.drive d with surveyRound := some x.round }).deselect x d.side true
      (if e.survey.lastStep d then some Notice.surveyDone else none)).toIdle x d.side = e.stepLeft x d := rfl
  simp only [Engine.endSurveyStep, h, left, survey, Survey.afterEnd]
  split <;> rfl

/-- The step a channel runs is one of a survey already ended, or the one in hand (R159). -/
theorem Survey.stepOn_of {v : Survey}
    (h : v.orphans.get d.side = some d ∨ v.orphans.get d.side = none ∧ v.step = some d) :
    v.stepOn d.side = some d := by
  rcases h with ended | ⟨none, step⟩
  · simp [Survey.stepOn, ended]
  · simp [Survey.stepOn, none, step]

theorem Survey.afterEnd_ended {v : Survey} (h : v.orphans.get d.side = some d) :
    v.afterEnd d = { v with orphans := v.orphans.set d.side none } := by
  simp [Survey.afterEnd, h]

theorem Survey.afterEnd_inHand {v : Survey} (h : v.orphans.get d.side = none) : v.afterEnd d = v.stepEnded d := by
  simp [Survey.afterEnd, h]

theorem Survey.stepNotice_last {v : Survey} (h : v.orphans.get d.side = none) (last : v.afterStep d = none) :
    v.stepNotice d = some .surveyDone := by
  simp [Survey.stepNotice, Survey.lastStep, h, last]

end

/-- Settles O39: the step's end is written out as its channel and drive let go, then the survey unit's move. -/
theorem surveyStepsGoFirstAndEnd : Obligations.SurveyStepsGoFirstAndEnd := by
  refine ⟨fun s c d run claim step next side => ⟨rfl, fun o => Engine.takeNext_bound, fun bound =>
    Engine.takeNext_patient ⟨run, claim, step, next, side, bound⟩, fun bound =>
    Engine.takeNext_chooses ⟨run, claim, step, next, side, bound⟩⟩, fun s c active =>
    ⟨fun st n act => ⟨fun few => ?_, fun enough => ?_⟩, fun act => ?_, ?_⟩⟩
  · refine (State.engineEvent_of_active active fun x e => e.surveyTimeout x c).trans ?_
    rw [Engine.surveyTimeout_eq act, if_neg (Nat.not_le.mpr few)]
  · refine (State.engineEvent_of_active active fun x e => e.surveyTimeout x c).trans ?_
    rw [Engine.surveyTimeout_eq act, if_pos enough]
  · refine (State.engineEvent_of_active active fun x e => e.surveyTimeout x c).trans ?_
    rw [Engine.surveyTimeout_of_not act]
  · rintro d rfl selected v ended inHand which
    obtain ⟨survey, chan, drive, timers, held, log, queue⟩ :=
      Engine.setSurvey_frame (x := s.front) (e := s.engine.stepLeft s.front d) (s.engine.survey.afterEnd d)
    have only : s.engine.OnlyChannel d.side (s.engine.stepLeft s.front d) := Engine.stepLeft_onlyChannel
    have round := Engine.stepLeft_drive (x := s.front) selected
    rw [Engine.endSurveyStep_eq (Survey.stepOn_of which)]
    simp only [chan, drive, timers, held, log, survey]
    obtain ⟨state, deselected, order⟩ := Engine.stepLeft_chan (x := s.front) (e := s.engine) (d := d)
    refine ⟨state, deselected, order, ?_, ?_, fun d' hd => ?_, Engine.stepLeft_timers selected, only.held, only.log,
      Survey.afterEnd_ended, fun ⟨own, step⟩ => ⟨Survey.afterEnd_inHand own, ?_, fun last => ?_⟩⟩
    · rw [round, if_pos rfl]
      rfl
    · rw [round, if_pos rfl]
      rfl
    · rw [round, if_neg hd]
    · rw [Survey.afterEnd_inHand own, Survey.stepEnded_step]
    · obtain ⟨r, mem, kind, notice⟩ := Engine.stepLeft_request (x := s.front) selected
      exact ⟨r, queue r mem, kind, notice.trans (Survey.stepNotice_last own last)⟩

end Sys2Proof.Machine

namespace Sys2Proof.Machine

/-! ### Round ticks (R80 to R85) -/

/-- A standing order is due where the round and its value agree in every bit of the mask (R81). -/
theorem OrderFields.dueIn_iff (f : OrderFields) (round : BitVec 6) : f.dueIn round = true ↔
    ∀ k < 6, f.roundMask.getLsbD k = true → round.getLsbD k = f.roundValue.getLsbD k := by
  have bit (r v m : Bool) : (r && m) = (v && m) ↔ (m = true → r = v) := by
    cases m <;> simp
  simp only [OrderFields.dueIn, beq_iff_eq, BitVec.eq_of_getLsbD_eq_iff, BitVec.getLsbD_and, bit]

theorem Order.refreshes_iff (o : Order) : o.refreshes = true ↔ (o.fields.changedOnly = true → o.changed = true) := by
  cases h : o.fields.changedOnly <;> simp [Order.refreshes, h]

/-- What falling due and missing a round have in common (R82, R83, R85). -/
theorem Order.tested_and_refreshes_iff (o : Order) (round : BitVec 6) :
    o.tested round = true ∧ o.refreshes = true ↔
      o.fields.standing = true ∧ o.finish = none ∧
        (∀ k < 6, o.fields.roundMask.getLsbD k = true → round.getLsbD k = o.fields.roundValue.getLsbD k) ∧
        (o.fields.changedOnly = true → o.changed = true) := by
  rw [Order.tested, Bool.and_eq_true, Bool.and_eq_true, Option.isNone_iff_eq_none, OrderFields.dueIn_iff,
    Order.refreshes_iff, and_assoc, and_assoc]

theorem Order.fallsDue_iff (o : Order) (round : BitVec 6) : o.fallsDue round = true ↔
    (o.tested round = true ∧ o.refreshes = true) ∧ o.state = .waitingRound := by
  rw [Order.fallsDue, Bool.and_eq_true, Bool.and_eq_true, beq_iff_eq, and_right_comm]

theorem Order.misses_iff (o : Order) (round : BitVec 6) : o.misses round = true ↔
    (o.tested round = true ∧ o.refreshes = true) ∧ o.state ≠ .waitingRound := by
  rw [Order.misses, Bool.and_eq_true, Bool.and_eq_true, Bool.not_eq_true', beq_eq_false_iff_ne, and_right_comm]

/-- The record of an order that does not fall due: a round that it misses is counted (R85). -/
def Order.notDue (round : BitVec 6) (o : Order) : Order :=
  { o with missedRounds := if o.misses round then min 255 (o.missedRounds + 1) else o.missedRounds }

theorem Order.notDue_eq (round : BitVec 6) (o : Order) :
    (if o.misses round then { o with missedRounds := min 255 (o.missedRounds + 1) } else o) = o.notDue round := by
  unfold Order.notDue
  split <;> rfl

/-- An order that has become due has begun nothing of its new run (R84). -/
theorem Order.becomeDue_entry (o : Order) (c : Side) (i : Nat) : o.becomeDue.entry c i = .notBegun :=
  freshProgress_getD c i

/-- The phase writes of the orders are issued in the order of the list (log 58). -/
theorem Engine.writePhases_eq (x : Front) (phase : Nat) (l : List Order) (e : Engine) :
    l.foldl (fun e o => e.writePhase x o.slot phase none) e =
      { e with port := { e.port with
          queue := e.port.queue ++ l.map fun o => phaseRequest x o.slot phase none } } := by
  induction l generalizing e with
  | nil => simp
  | cons o l ih =>
    rw [List.foldl_cons, ih, List.map_cons, List.append_cons]
    rfl

/-- The due check changes the list of the held orders, and issues a phase write for each that falls due
(R82 to R85). -/
theorem Engine.dueCheck_eq (x : Front) (e : Engine) (round : BitVec 6) :
    e.dueCheck x round =
      { e with
        held := (e.held.filter fun o => !(o.fallsDue round)).map (Order.notDue round) ++
          (e.held.filter fun o => o.fallsDue round).map Order.becomeDue,
        port := { e.port with queue := e.port.queue ++
          (e.held.filter fun o => o.fallsDue round).map fun o => phaseRequest x o.slot phaseQueued none } } := by
  unfold Engine.dueCheck
  simp only [Order.notDue_eq, Engine.writePhases_eq]

/-- The header write of the next round (R80). -/
theorem Engine.headerWrite_round (x : Front) (e : Engine) :
    e.headerWrite x.nextRound [(0x10, BitVec.ofNat 16 x.nextRound.round.toNat)] none =
      e.issue .headerWrite
        [{ addr := x.areaBase.toNat * 256 + 0x10, data := some ((x.round + 1).setWidth 16) }] none := by
  rw [BitVec.ofNat_toNat]
  rfl

theorem execRoundTick_of_active {s : State} (active : s.front.ctl = .run ∨ s.front.ctl = .draining) :
    exec .roundTick s = .next (State.settle { s with
      front := s.front.nextRound,
      engine :=
        let e := s.engine.headerWrite s.front.nextRound
          [(0x10, BitVec.ofNat 16 s.front.nextRound.round.toNat)] none
        if s.front.ctl = .run then e.dueCheck s.front.nextRound s.front.nextRound.round else e }) :=
  congrArg Host.Outcome.next (if_pos ((Front.active_iff _).mpr active))

theorem execRoundTick_of_idle {s : State} (run : s.front.ctl ≠ .run) (draining : s.front.ctl ≠ .draining) :
    exec .roundTick s = .next s :=
  congrArg Host.Outcome.next (if_neg fun active => ((Front.active_iff _).mp active).elim run draining)

/-- Settles O37: the due check written out as the list it leaves and the requests it issues. -/
theorem roundTickMakesOrdersDue : Obligations.RoundTickMakesOrdersDue := by
  refine ⟨fun s => ⟨fun draining => ?_, fun run => ?_, execRoundTick_of_idle⟩, fun o round => ?_⟩
  · rw [execRoundTick_of_active (.inr draining), if_neg (by simp [draining]), Engine.headerWrite_round]
    rfl
  · rw [execRoundTick_of_active (.inl run), if_pos run, Engine.headerWrite_round, Engine.dueCheck_eq]
    refine ⟨_, rfl, ⟨_, rfl, ?_, fun o mem => ?_, ?_⟩, rfl⟩
    · rw [List.map_map]
      rfl
    · obtain ⟨o, -, rfl⟩ := List.mem_map.mp mem
      exact ⟨rfl, rfl, rfl, rfl, rfl, rfl, rfl, rfl, o.becomeDue_entry⟩
    · rw [List.map_map]
      rfl
  · dsimp only
    rw [← Order.tested_and_refreshes_iff]
    exact ⟨o.fallsDue_iff round, o.misses_iff round⟩

end Sys2Proof.Machine

namespace Sys2Proof.Machine

/-! ### What a command does to the edition clock (R93 to R98) -/

/-- What a command other than a reset may make of the edition clock. -/
inductive Clock.Moves : Instr → Clock → Clock → Prop
  | kept (c : Instr) (k : Clock) : Moves c k k
  /-- A preset is applied (R95). -/
  | loaded (preset : Word) (k : Clock) : Moves (.presetReadComplete preset) k (k.load preset.toNat)
  /-- CLOCK_RUN and CLOCK_HALT (R96). -/
  | switched (c : Instr) (k : Clock) (running : Bool) : Moves c k { k with running := running }
  /-- A second is counted (R97). -/
  | counted (k : Clock) (left : 0 < k.remaining) : Moves .editionCount k k.count
  /-- START takes the rush window (R93). -/
  | started (c : Instr) (k : Clock) (window : Nat) :
      Moves c k { k with window := window, phase := k.phaseOnStart window }

/-- The command's move of the clock between two states. -/
def State.ClockMoves (c : Instr) (s t : State) : Prop := Clock.Moves c s.front.clock t.front.clock

section
variable {c : Instr} {s t : State}

theorem State.Within.clockMoves (h : s.Within t) : State.ClockMoves c s t := by
  unfold State.ClockMoves
  rw [h.clock]
  exact .kept c _

/-- The clock moves where the command takes its effect, and not in what follows. -/
theorem State.ClockMoves.then {u : State} (h : State.ClockMoves c s t) (k : t.Within u) : State.ClockMoves c s u := by
  unfold State.ClockMoves
  rw [k.clock]
  exact h

theorem execPresetReadComplete_clock {preset : Word} (h : execPresetReadComplete preset s = .next t) :
    State.ClockMoves (.presetReadComplete preset) s t := by
  cases h
  split
  · exact .kept _ _
  · rename_i a
    have same := (State.await_within a).clock
    unfold State.ClockMoves
    rw [← same]
    exact .loaded preset _

theorem execClockRun_clock (h : execClockRun s = .next t) : State.ClockMoves .clockRun s t := by
  cases h
  dsimp only
  split
  · exact .switched _ _ true
  · exact .kept _ _

theorem execClockHalt_clock (h : execClockHalt s = .next t) : State.ClockMoves .clockHalt s t := by
  cases h
  dsimp only
  split
  · exact .switched _ _ false
  · exact .kept _ _

theorem execActionWrite_clock {w : Word} (h : execActionWrite w s = .next t) :
    State.ClockMoves (.actionWrite w) s t := by
  cases h
  dsimp only
  split
  · split <;> exact .kept _ _
  · exact .kept _ _

/-- A count is taken with time left, also at the entry to FAULT (R97, R99; log 43). -/
theorem execEditionCount_clock (h : execEditionCount s = .next t) : State.ClockMoves .editionCount s t := by
  cases h
  dsimp only
  split
  · rename_i counts
    have left : 0 < s.front.clock.remaining := by
      simp only [Front.counts, Bool.and_eq_true, decide_eq_true_eq] at counts
      exact counts.2
    refine State.ClockMoves.then ?_ (State.settle_within _)
    split <;> exact .counted _ left
  · split
    · rename_i closes
      have last : s.front.clock.remaining = 1 := by
        simp only [State.closesGoingToFault, Bool.and_eq_true, decide_eq_true_eq] at closes
        exact closes.2
      exact .counted _ (by omega)
    · exact .kept _ _

theorem State.decideStart_clock (s : State) (area : AreaData) (image : List Word) :
    State.ClockMoves c s (s.decideStart area image) := by
  unfold State.decideStart
  split
  · exact (s.failStart_within _ _).clockMoves
  · rename_i commit _
    refine State.ClockMoves.then ?_ (State.settle_within _)
    exact .started c _ commit.window

theorem State.startTables_clock (s : State) (area : AreaData) : State.ClockMoves c s (s.startTables area) := by
  unfold State.startTables
  split
  · exact (s.failStart_within _ _).clockMoves
  · split
    · exact .kept c _
    · exact s.decideStart_clock area []

theorem State.startRead_clock (s : State) {f : State → State} (hf : ∀ s', State.ClockMoves c s' (f s')) :
    State.ClockMoves c s (s.startRead f) := by
  unfold State.startRead
  split
  · exact .kept c _
  · rename_i s' a
    unfold State.ClockMoves
    rw [← (State.await_within a).clock]
    exact hf s'

theorem execStartReadComplete_clock {read : StartRead} (h : execStartReadComplete read s = .next t) :
    State.ClockMoves (.startReadComplete read) s t := by
  cases h
  split
  · exact s.startRead_clock fun s' => s'.startTables_clock _
  · exact s.startRead_clock fun s' => s'.decideStart_clock _ _
  · exact .kept _ _

/-- What a command other than a reset does to the clock. -/
theorem exec_clock (h : exec c s = .next t) (reset : ∀ moved, c ≠ .reset moved)
    (resetLine : ∀ moved, c ≠ .resetLine moved) : State.ClockMoves c s t := by
  have event {f : Front → Engine → Engine} (h : (Host.Outcome.next (s.engineEvent f) : Result) = .next t) :
      State.ClockMoves c s t := by
    cases h
    exact (s.engineEvent_within f).clockMoves
  have told {p : Notice → Bool} {bit : Nat}
      (h : (Host.Outcome.next (match s.await p with
        | none => s
        | some (_, s) => { s with engine := s.engine.setAttention bit }) : Result) = .next t) :
      State.ClockMoves c s t := by
    cases h
    split
    · exact .kept c _
    · exact (State.attention_within ‹_› bit).clockMoves
  have answered {row : Word → Bool} {f : State → Word → State}
      (h : (Host.Outcome.next (s.act row f) : Result) = .next t) (hf : ∀ (s : State) (w : Word), s.Within (f s w)) :
      State.ClockMoves c s t := by
    cases h
    exact (s.act_within row f hf).clockMoves
  have written {p : Prop} [Decidable p] {s' : State}
      (h : (Host.Outcome.next (if p then s' else s) : Result) = .next t) (hs : s.Within s') :
      State.ClockMoves c s t := by
    cases h
    split
    · exact hs.clockMoves
    · exact .kept c _
  cases c with
  | presetReadComplete preset => exact execPresetReadComplete_clock h
  | clockRun => exact execClockRun_clock h
  | clockHalt => exact execClockHalt_clock h
  | editionCount => exact execEditionCount_clock h
  | startReadComplete read => exact execStartReadComplete_clock h
  | actionWrite w => exact execActionWrite_clock h
  | reset moved => exact absurd rfl (reset moved)
  | resetLine moved => exact absurd rfl (resetLine moved)
  | start => exact (execStart_within h).clockMoves
  | stop => exact (execStop_within h).clockMoves
  | abortAll => exact (execAbortAll_within h).clockMoves
  | clockLoad | attentionClear _ | ageTick => exact written h (.of_front rfl)
  | areaBaseWrite _ | doneClear _ _ => exact written h (.of_eq rfl rfl rfl rfl rfl)
  | roundTick => exact written h (.settle (.of_eq rfl rfl rfl rfl rfl))
  | post => exact (execPost_within h).clockMoves
  | slotReadComplete words => exact (execSlotReadComplete_within h).clockMoves
  | withdraw => exact (execWithdraw_within h).clockMoves
  | repost | surveyOnce | surveyLoop | surveyStop => exact answered h fun _ _ => .of_eq rfl rfl rfl rfl rfl
  | badAction => exact (execBadAction_within h).clockMoves
  | busErrorRecord word => exact (execBusErrorRecord_within h).clockMoves
  | memoryError c => exact (execMemoryError_within h).clockMoves
  | doneBitSet => exact (execDoneBitSet_within h).clockMoves
  | unloadTouchEnd c => exact (execUnloadTouchEnd_within h).clockMoves
  | driveAttention _ | surveyDone | configError => exact told h
  | resetLineRelease =>
    cases h
    exact .kept _ _
  | busGrant =>
    cases h
    exact s.grant_only.within.clockMoves
  | bufferCopyComplete _ | bufferFetchComplete _ _ =>
    cases h
    exact (s.transferDone_within _ _ _).clockMoves
  | surveyWaitExpiry =>
    cases h
    exact s.settle_within.clockMoves
  | stepTimeEnd c trk0 =>
    cases h
    exact ((s.trackLine_within c trk0).event _).clockMoves
  | readySample d lines =>
    cases h
    have sensed : s.Within { s with front := s.front.setPins d lines } := .of_eq rfl rfl rfl rfl rfl
    exact (sensed.event _).clockMoves
  | headUnloadExpiry _ | claim _ | settleEnd _ | headLoadEnd _ | idFieldRead _ _ | dataFieldRead _ _
  | dataFieldWritten _ | passAcross _ | searchTimeout _ _ | indexPulse _ _ | noIndexTimeout _
  | surveyStepTimeout _ | nominalFinalFillEnd _ => exact event h

end

/-! ### The phases (R94) -/

section
variable {c : Instr} {k k' : Clock}

/-- IDLE with nothing left is left by a preset alone. -/
theorem Clock.Moves.idle (h : Clock.Moves c k k') (idle : k.phase = .idle) (remaining : k.remaining = 0)
    (noPreset : ∀ w, c ≠ .presetReadComplete w) : k'.phase = .idle := by
  cases h with
  | kept | switched => exact idle
  | loaded preset => exact absurd rfl (noPreset preset)
  | counted _ left => omega
  | started => simp only [Clock.phaseOnStart, idle]

theorem Clock.Moves.ne_idle (h : Clock.Moves c k k') (loaded : k.phase ≠ .idle) : k'.phase ≠ .idle := by
  cases h with
  | kept | switched => exact loaded
  | loaded | counted => exact phaseAt_ne_idle _ _
  | started => exact fun idle => loaded (Clock.phaseOnStart_idle idle)

/-- CLOSED is left by a preset above 0 alone. -/
theorem Clock.Moves.closed (h : Clock.Moves c k k') (closed : k.phase = .closed) (remaining : k.remaining = 0)
    (preset : ∀ w, c = .presetReadComplete w → w = 0) : k'.phase = .closed := by
  cases h with
  | kept | switched => exact closed
  | loaded w =>
    rw [preset w rfl]
    rfl
  | counted _ left => omega
  | started => simp only [Clock.phaseOnStart, closed]

end

/-- Settles O14: each move of the clock keeps the phase as the rule says. -/
theorem phasesAreLeftByALoad : Obligations.PhasesAreLeftByALoad := by
  intro c s t h reset resetLine
  have moves := exec_clock h reset resetLine
  exact ⟨fun bounded idle => moves.idle idle (bounded.idle idle), moves.ne_idle, moves.closed⟩

/-! ### The clock's commands (R92, R94 to R96) -/

/-- The write of the edition fields, word by word (R92). -/
theorem Engine.writeClock_eq (x : Front) (e : Engine) :
    e.writeClock x = e.issue .headerWrite
      [{ addr := x.areaBase.toNat * 256 + 0x12, data := some (BitVec.ofNat 16 x.clock.remaining) },
       { addr := x.areaBase.toNat * 256 + 0x14,
         data := some (lohi x.clock.phase.code (if x.clock.running then 1 else 0)) }] none := rfl

/-- Settles O20: the commands are heard and taken in RUN and DRAINING; the preset is applied as its read completes. -/
theorem clockCommandsAreTaken : Obligations.ClockCommandsAreTaken := by
  refine fun s => ⟨fun line ctl => ?_, fun s1 n preset awaited => ?_⟩
  · have taken : s.front.hears ∧ s.front.active := ⟨Front.hears_of_noLine line, s.front.active_iff.mpr ctl⟩
    exact ⟨congrArg Host.Outcome.next (if_pos taken), congrArg Host.Outcome.next (if_pos taken),
      congrArg Host.Outcome.next (if_pos taken)⟩
  · simp only [exec, execPresetReadComplete, awaited]
    rfl

end Sys2Proof.Machine

namespace Sys2Proof.Machine

/-! ### A finish that has been decided stands (R4, R24)

`Finished` says that a slot's order has its finish. Nothing that the settling of the channels begins takes it away or
changes it; one lemma an operation, in the form "a finish decided so far is decided still". -/

/-- The slot's order has its finish, with this code. -/
def Engine.Finished (e : Engine) (n : Nat) (k : FinishCode) : Prop := ∃ o, e.order? n = some o ∧ o.finish = some k

section
variable {x : Front} {e e' : Engine} {n : Nat} {k : FinishCode}

theorem Engine.Finished.of_order? (h : e.Finished n k) (same : e'.order? n = e.order? n) : e'.Finished n k := by
  unfold Engine.Finished
  rw [same]
  exact h

theorem Engine.Finished.of_held (h : e.Finished n k) (held : e'.held = e.held) : e'.Finished n k :=
  h.of_order? (Engine.order?_congr held n)

/-- A change of the orders' records that leaves their finishes. -/
theorem Engine.Finished.mapHeld (h : e.Finished n k) {f : Order → Order}
    (same : ∀ o, (f o).slot = o.slot ∧ (f o).finish = o.finish) :
    ({ e with held := e.held.map f } : Engine).Finished n k := by
  obtain ⟨o, ho, hf⟩ := h
  refine ⟨f o, ?_, (same o).2.trans hf⟩
  have slots : (fun o : Order => o.slot == n) ∘ f = fun o => o.slot == n := by
    funext o
    simp [(same o).1]
  simp only [Engine.order?, List.find?_map, slots]
  exact congrArg (Option.map f) ho

theorem Engine.Finished.updOrder (h : e.Finished n k) (slot : Nat) {f : Order → Order}
    (same : ∀ o, (f o).slot = o.slot ∧ (f o).finish = o.finish) : (e.updOrder slot f).Finished n k :=
  h.mapHeld fun o => by
    split
    · exact same o
    · exact ⟨rfl, rfl⟩

/-- What goes on with a judged order leaves its finish, and the other orders. -/
theorem Engine.Finished.carries (h : e.Finished n k) {slot : Nat} (carried : e.Carries slot e') : e'.Finished n k := by
  by_cases hs : n = slot
  · obtain ⟨o, ho, hf⟩ := h
    subst hs
    obtain ⟨o', ho', goes⟩ := carried.goes.some ho
    rcases goes.finish with same | ⟨undecided, -⟩
    · exact ⟨o', ho', same.trans hf⟩
    · rw [hf] at undecided
      cases undecided
  · exact h.of_order? (carried.acts.others n hs)

theorem Engine.Finished.toTail (h : e.Finished n k) (slot : Nat) : (e.toTail slot).Finished n k := by
  refine h.of_order? ?_
  have nowhere (l : List Order) : l.find? (fun _ => false) = none := List.find?_eq_none.mpr (by simp)
  unfold Engine.order? Engine.toTail
  simp only [List.find?_append, List.find?_filter, Bool.decide_and, Bool.decide_eq_true]
  by_cases hs : slot = n
  · subst hs
    simp only [Bool.not_and_self, Bool.and_self, nowhere, Option.none_or]
  · have ahead : (fun o : Order => !(o.slot == slot) && o.slot == n) = fun o => o.slot == n := by
      funext o
      grind
    have behind : (fun o : Order => o.slot == slot && o.slot == n) = fun _ => false := by
      funext o
      grind
    rw [ahead, behind, nowhere, Option.or_none]

theorem Engine.Finished.foldl {ι : Type} {f : Engine → ι → Engine}
    (hf : ∀ (e : Engine) (i : ι), e.Finished n k → (f e i).Finished n k) (l : List ι) :
    ∀ {e : Engine}, e.Finished n k → (l.foldl f e).Finished n k := by
  induction l with
  | nil => exact fun h => h
  | cons i l ih => exact fun h => ih (hf _ i h)

/-! ### The end of a run (R24, R76, R86) -/

theorem Engine.Finished.writePhase (h : e.Finished n k) (slot phase : Nat) (notice : Option Notice) :
    (e.writePhase x slot phase notice).Finished n k := h.of_held rfl

theorem Engine.Finished.writeResults (h : e.Finished n k) (slot : Nat) (r : Results) :
    (e.writeResults x slot r).Finished n k := h.of_held rfl

/-- A finish already decided stands. -/
theorem Engine.Finished.decideFinish (h : e.Finished n k) (slot : Nat) (code : FinishCode) (late : Bool) :
    (e.decideFinish x slot code late).Finished n k := by
  by_cases hs : n = slot
  · obtain ⟨o, ho, hf⟩ := h
    subst hs
    simp only [Engine.decideFinish, ho, hf, Option.isSome_some, if_true]
    exact ⟨o, ho, hf⟩
  · exact h.of_order? ((Engine.decideFinish_acts x e slot code late).others n hs)

theorem Engine.Finished.backToStanding (h : e.Finished n k) (slot : Nat) (code : FinishCode) :
    (e.backToStanding x slot code).Finished n k := by
  unfold Engine.backToStanding
  split
  · exact h
  · have returned := h.carries (Engine.unreserve_carries x e slot)
    refine Engine.Finished.writePhase (Engine.Finished.writeResults ?_ _ _) _ _ _
    exact returned.updOrder slot fun _ => ⟨rfl, rfl⟩

theorem Engine.Finished.requeueMend (h : e.Finished n k) (slot : Nat) : (e.requeueMend x slot).Finished n k := by
  unfold Engine.requeueMend
  refine Engine.Finished.writePhase ?_ _ _ _
  exact (h.toTail slot).updOrder slot fun _ => ⟨rfl, rfl⟩

theorem Engine.Finished.pairAttach (h : e.Finished n k) (p : PairId) : (e.pairAttach x p).Finished n k :=
  (h.mapHeld (f := fun o => if o.kind == .mend && o.pair == p then { o with cursor := none } else o) fun o => by
    split <;> exact ⟨rfl, rfl⟩).of_held rfl

theorem Engine.Finished.endTurn (h : e.Finished n k) (o : Order) : (e.endTurn x o).Finished n k := by
  have left {e : Engine} (h : e.Finished n k) : (if x.ctl = .run then e.requeueMend x o.slot
      else e.decideFinish x o.slot .stopped false).Finished n k := by
    split
    · exact h.requeueMend _
    · exact h.decideFinish _ _ _
  unfold Engine.endTurn
  dsimp only
  split
  · split
    · exact left h
    · exact h.decideFinish _ _ _
  · split
    · exact left h
    · split
      · exact (h.pairAttach o.pair).decideFinish _ _ _
      · exact left (h.updOrder o.slot fun _ => ⟨rfl, rfl⟩)

theorem Engine.Finished.endRun (h : e.Finished n k) (slot : Nat) : (e.endRun x slot).Finished n k := by
  unfold Engine.endRun
  extract_lets e1 e2
  have ended : e2.Finished n k :=
    (h.carries (Engine.resolveRest_carries x e slot)).updOrder slot fun _ => ⟨rfl, rfl⟩
  split
  · exact ended
  · dsimp only
    split
    · exact ended
    · split
      · exact ended.endTurn _
      · split
        · split
          · exact ended.backToStanding _ _
          · exact ended.decideFinish _ _ _
        · exact ended.decideFinish _ _ _

/-! ### A channel lets go, and what it says of the order (R65, R104, R115 to R118) -/

theorem Engine.Finished.deselect (h : e.Finished n k) (c : Side) (survey : Bool) (notice : Option Notice) :
    (e.deselect x c survey notice).Finished n k := h.of_held (Engine.deselect_onlyChannel x e c survey notice).held

theorem Engine.Finished.enter (h : e.Finished n k) (c : Side) (st : ChannelState) : (e.enter x c st).Finished n k :=
  h.of_held (Engine.enter_onlyChannel x e c st).held

theorem Engine.Finished.toIdle (h : e.Finished n k) (c : Side) : (e.toIdle x c).Finished n k :=
  h.of_held (Engine.toIdle_onlyChannel x e c).held

theorem Engine.Finished.updChan (h : e.Finished n k) (c : Side) (f : Channel → Channel) : (e.updChan c f).Finished n k :=
  h.of_held rfl

theorem Engine.Finished.setAct (h : e.Finished n k) (c : Side) (a : Act) : (e.setAct c a).Finished n k := h.of_held rfl

theorem Engine.Finished.release (h : e.Finished n k) (c : Side) : (e.release x c).Finished n k := by
  have idle := (h.deselect (x := x) c false none).toIdle (x := x) c
  unfold Engine.release
  split
  · exact idle
  · dsimp only
    split
    · exact idle
    · exact idle.endRun _

theorem Engine.Finished.tryClean (h : e.Finished n k) (c : Side) : (e.tryClean x c).Finished n k := by
  unfold Engine.tryClean
  split
  · split
    · exact h.of_held rfl
    · exact h.release c
  · exact h

theorem Engine.Finished.stopChannel (h : e.Finished n k) (c : Side) (slot : Nat) :
    (e.stopChannel x c slot).Finished n k := by
  unfold Engine.stopChannel
  split
  · exact (h.updChan c _).tryClean c
  · exact h

theorem Engine.Finished.stopOrder (h : e.Finished n k) (slot : Nat) : (e.stopOrder x slot).Finished n k :=
  (h.stopChannel (x := x) .A slot).stopChannel .B slot

theorem Engine.Finished.freeWaiter (h : e.Finished n k) (c : Side) (slot : Nat) :
    (e.freeWaiter x c slot).Finished n k := h.of_held (Engine.freeWaiter_onlyChannel x e c slot).held

theorem Engine.Finished.finishWaiting (h : e.Finished n k) (slot : Nat) (code : FinishCode) (late : Bool) :
    (e.finishWaiting x slot code late).Finished n k := by
  have decided := h.decideFinish (x := x) slot code late
  unfold Engine.finishWaiting
  split
  · exact h
  · split
    · exact decided
    · exact decided.freeWaiter _ slot

theorem Engine.Finished.setPending (h : e.Finished n k) (slot : Nat) (code : FinishCode) (pl : Place) :
    (e.setPending x slot code pl).Finished n k := by
  unfold Engine.setPending
  refine Engine.Finished.stopOrder ?_ slot
  exact h.updOrder slot fun _ => ⟨rfl, rfl⟩

theorem Engine.Finished.resolve (h : e.Finished n k) (slot i : Nat) : (e.resolve x slot i).Finished n k := by
  have once : (e.resolveOnce x slot i false).1.Finished n k := h.carries (Engine.resolveOnce_carries x e slot i false)
  unfold Engine.resolve
  split
  · exact h
  · split
    · rename_i resolved
      rwa [resolved] at once
    · rename_i resolved
      rw [resolved] at once
      exact once.setPending slot _ _

theorem Engine.Finished.resolveAll (h : e.Finished n k) (slot : Nat) : (e.resolveAll x slot).Finished n k := by
  unfold Engine.resolveAll
  split
  · exact h
  · exact .foldl (fun _ i h => h.resolve slot i) _ h

theorem Engine.Finished.failSide (h : e.Finished n k) (c : Side) (code : FinishCode) :
    (e.failSide x c code).Finished n k := by
  have givenUp (slot : Nat) : (e.sideGivenUp x c slot code).Finished n k := by
    unfold Engine.sideGivenUp
    dsimp only
    refine Engine.Finished.updOrder ?_ slot fun _ => ⟨rfl, rfl⟩
    split <;> exact h.of_held rfl
  have reported {e : Engine} (h : e.Finished n k) (slot : Nat) : (e.reportSide x slot code).Finished n k := by
    unfold Engine.reportSide
    split
    · exact h
    · split
      · exact h.setPending _ _ _
      · split
        · split
          · exact h
          · exact h.resolveAll _
        · exact h.setPending _ _ _
  cases ho : (e.chan c).order with
  | none => simpa only [Engine.failSide, ho] using h
  | some slot =>
    rw [Engine.failSide_eq x ho]
    exact (reported (givenUp slot) slot).release c

/-! ### A drive leaves READY, and medium changes (R27, R73, R113, R118, R152, R158) -/

theorem Engine.Finished.setDrive (h : e.Finished n k) (d : Drive) (v : Knowledge) : (e.setDrive d v).Finished n k :=
  h.of_held rfl

theorem Engine.Finished.setSurvey (h : e.Finished n k) (v : Survey) : (e.setSurvey x v).Finished n k := by
  unfold Engine.setSurvey
  dsimp only
  split <;> exact h.of_held rfl

theorem Engine.Finished.endSurveyStep (h : e.Finished n k) (c : Side) : (e.endSurveyStep x c).Finished n k := by
  unfold Engine.endSurveyStep
  split
  · exact h
  · have left (d : Drive) (v : Knowledge) (notice : Option Notice) :
        (((e.setDrive d v).deselect x c true notice).toIdle x c).Finished n k :=
      ((h.setDrive d v).deselect (x := x) c true notice).toIdle c
    have moved (e : Engine) (h : e.Finished n k) (ended : Bool) (v w : Survey) :
        (if ended = true then e.setSurvey x v else e.setSurvey x w).Finished n k := by
      cases ended <;> exact h.setSurvey _
    exact moved _ (left _ _ _) _ _ _

theorem Engine.Finished.holdFailure (h : e.Finished n k) (c : Side) (code : FinishCode) :
    (e.holdFailure x c code).Finished n k := (h.deselect c false none).updChan c _

theorem Engine.Finished.leaveReady (h : e.Finished n k) (d : Drive) (code : FinishCode) :
    (e.leaveReady x d code).Finished n k := by
  unfold Engine.leaveReady
  dsimp only
  split
  · split
    · exact h.endSurveyStep _
    · split
      · exact h.tryClean _
      · exact h.holdFailure _ _
    · exact h.failSide _ _
    · exact h.failSide _ _
    · exact h.failSide _ _
    · exact h
    · exact h
  · exact h

theorem Engine.Finished.meetChange (h : e.Finished n k) (d : Drive) (slot : Nat) :
    (e.meetChange x d slot).Finished n k := by
  unfold Engine.meetChange
  split
  · exact h
  · split
    · exact h
    · split
      · exact h.finishWaiting _ _ _
      · exact h.finishWaiting _ _ _
      · exact h.finishWaiting _ _ _
      · refine Engine.Finished.stopOrder ?_ slot
        exact h.updOrder slot fun _ => ⟨rfl, rfl⟩

theorem Engine.Finished.mediumChange (h : e.Finished n k) (d : Drive) : (e.mediumChange x d).Finished n k := by
  have met (v : Knowledge) : ((e.setDrive d v).rosterChange x d).Finished n k :=
    .foldl (fun _ slot h => h.meetChange (x := x) d slot) _ (h.setDrive d v)
  exact ((met _).of_held (Engine.pairChange_held x _ d)).of_held rfl

/-! ### The selection and its sample (R104, R144 to R147) -/

theorem Engine.Finished.setState (h : e.Finished n k) (d : Drive) (st : DriveState) (tell : Bool) :
    (e.setState x d st tell).Finished n k := h.of_held rfl

theorem Engine.Finished.takeLevel (h : e.Finished n k) (d : Drive) (level : Bool) :
    (e.takeLevel x d level).Finished n k := by
  unfold Engine.takeLevel
  extract_lets v tell e1
  have noted : e1.Finished n k := h.setDrive d _
  split
  · split
    · exact noted.setState d _ _
    · exact (noted.setDrive d _).mediumChange d
    all_goals exact noted
  · split
    · exact noted.setState d _ _
    · exact (noted.setState d _ _).leaveReady d .notReady
    · exact noted.setState d _ _
    all_goals exact noted

theorem Engine.Finished.sampleReady (h : e.Finished n k) (d : Drive) (level : Bool) :
    (e.sampleReady x d level).Finished n k := by
  unfold Engine.sampleReady
  extract_lets v run e1
  have noted : e1.Finished n k := h.setDrive d _
  split
  · exact noted.takeLevel d level
  · exact noted

theorem Engine.Finished.updDrive (h : e.Finished n k) (d : Drive) (f : Knowledge → Knowledge) :
    (e.updDrive x d f).Finished n k := h.of_held (Engine.updDrive_frame x e d f).2.2.1

theorem Engine.Finished.selectionSample (h : e.Finished n k) (d : Drive) : (e.selectionSample x d).Finished n k := by
  have change (l : Lines) : (e.sampleChange x d l).Finished n k := by
    unfold Engine.sampleChange
    split
    · have noted (f : Knowledge → Knowledge) : (e.changeDrive x d f).Finished n k := h.of_held rfl
      dsimp only
      split
      · exact (noted _).mediumChange d
      · exact noted _
    · exact h
  unfold Engine.selectionSample Engine.sampleFlags
  exact ((change _).sampleReady d _).updDrive d _

theorem Engine.Finished.select (h : e.Finished n k) (c : Side) (p : PairId) (survey : Bool) :
    (e.select x c p survey).Finished n k := by
  unfold Engine.select
  extract_lets d e1 e2 v
  have driven : e2.Finished n k := by
    cases survey <;> exact h.of_held rfl
  exact (driven.setDrive d _).selectionSample d

/-! ### Positioning (R107 to R112) -/

theorem Engine.Finished.settled (h : e.Finished n k) (c : Side) : (e.settled x c).Finished n k := by
  unfold Engine.settled
  split
  · split
    · split
      · exact h.of_held rfl
      · exact h.updChan c _
    · split
      · exact h.setAct c _
      · exact h.release c
  · exact h

theorem Engine.Finished.beginSeek (h : e.Finished n k) (c : Side) : (e.beginSeek x c).Finished n k := by
  have arrived : (e.arrived x c).Finished n k := by
    unfold Engine.arrived
    split
    · exact h.setAct c _
    · exact h.settled c
  unfold Engine.beginSeek
  split
  · exact h
  · dsimp only
    split
    · exact arrived
    · exact h.updChan c _

theorem Engine.Finished.beginRecalibrate (h : e.Finished n k) (c : Side) : (e.beginRecalibrate x c).Finished n k := by
  unfold Engine.beginRecalibrate
  split
  · exact h
  · rename_i d _
    extract_lets e1 e2 level e3
    have steered : e2.Finished n k := (h.updDrive d _).updChan c _
    have sampled : e3.Finished n k := steered.of_held rfl
    split
    · exact (sampled.updDrive d _).beginSeek c
    · exact sampled.updChan c _

theorem Engine.Finished.startPositioning (h : e.Finished n k) (c : Side) (why : PosWhy) (target surface : Nat)
    (forced : Bool) : (e.startPositioning x c why target surface forced).Finished n k := by
  unfold Engine.startPositioning
  split
  · exact h
  · dsimp only
    split
    · exact (h.updChan c _).beginRecalibrate c
    · exact (h.updChan c _).beginSeek c

/-! ### Tracks (R128, R135, R137 to R140) -/

theorem Engine.Finished.goToTrack (h : e.Finished n k) (c : Side) (o : Order) (track : Nat) (why : PosWhy)
    (forced : Bool) : (e.goToTrack x c o track why forced).Finished n k :=
  (h.enter (x := x) c .positioning).startPositioning c why _ _ forced

theorem Engine.Finished.fillBuffer (h : e.Finished n k) (c b : Side) : (e.fillBuffer x c b).Finished n k := by
  unfold Engine.fillBuffer
  dsimp only
  split
  · split
    · split
      · exact h
      · exact h.of_held rfl
    · exact h
  · exact h

theorem Engine.Finished.enterTrack (h : e.Finished n k) (c : Side) (o : Order) (track : Nat) :
    (e.enterTrack x c o track).Finished n k := ((h.updChan c _).fillBuffer c .A).fillBuffer c .B

theorem Engine.Finished.mark (h : e.Finished n k) (slot : Nat) (c : Side) (pos : Nat) (v : Entry) :
    (e.mark slot c pos v).Finished n k := h.updOrder slot fun _ => ⟨rfl, rfl⟩

theorem Engine.Finished.formatFailed (h : e.Finished n k) (c : Side) (o : Order) :
    (e.formatFailed x c o).Finished n k := by
  unfold Engine.formatFailed
  extract_lets failed e1 e2
  have marked : e2.Finished n k :=
    .foldl (fun e i h => h.mark o.slot c i _) _ (h.setAct c .ending)
  split
  · exact marked.resolveAll _
  · cases failed with
    | nil => exact marked
    | cons i rest => exact marked.setPending _ _ _

theorem Engine.Finished.formatVerified (h : e.Finished n k) (c : Side) (o : Order) :
    (e.formatVerified x c o).1.Finished n k := by
  unfold Engine.formatVerified
  dsimp only
  split
  · split
    · split
      · exact Engine.Finished.goToTrack (h.updChan c _) c o _ _ _
      · refine Engine.Finished.setAct (Engine.Finished.enter ?_ c _) c _
        exact Engine.Finished.updOrder (h.updChan c _) o.slot fun _ => ⟨rfl, rfl⟩
    · exact h.formatFailed c o
  · dsimp only
    split
    · exact (h.setAct c _).resolveAll _
    · exact h.setAct c _

theorem Engine.Finished.leaveTrack (h : e.Finished n k) (c : Side) (o : Order) : (e.leaveTrack x c o).Finished n k := by
  unfold Engine.leaveTrack
  dsimp only
  split
  · exact h.release c
  · split
    · have here := (h.enter (x := x) c .trackPass).updChan c
      split
      · exact (here _).failSide c _
      · exact (here _).enterTrack c o _
    · exact h.goToTrack c o _ _ _

theorem Engine.Finished.enterVerify (h : e.Finished n k) (c : Side) : (e.enterVerify x c).Finished n k :=
  (h.enter c .verifyPass).of_held rfl

theorem Engine.Finished.backToTrack (h : e.Finished n k) (c : Side) : (e.backToTrack x c).Finished n k :=
  (h.enter c .trackPass).of_held rfl

theorem Engine.Finished.passEnd (h : e.Finished n k) (c : Side) (o : Order) : (e.passEnd x c o).Finished n k := by
  have verified := h.formatVerified (x := x) c o
  unfold Engine.passEnd
  dsimp only
  split
  · split
    · split
      · exact h.enterVerify c
      · exact h
    · exact h
    · split
      · exact h.enterVerify c
      · exact h.leaveTrack c o
    · split
      · exact h.enterVerify c
      · exact h.leaveTrack c o
    · exact h.leaveTrack c o
    · exact h.leaveTrack c o
    all_goals exact h
  · split
    · split
      · exact h.stopOrder _
      · exact h.backToTrack c
    · split
      · rename_i finished
        rw [finished] at verified
        exact verified.release c
      · rename_i again
        rwa [again] at verified
    · exact h.leaveTrack c o
    · exact h.leaveTrack c o
    all_goals exact h
  all_goals exact h

theorem Engine.Finished.goOn (turns : Nat) (c : Side) : ∀ {e : Engine}, e.Finished n k →
    (e.goOn x turns c).Finished n k := by
  induction turns with
  | zero => exact fun h => h
  | succ turns ih =>
    intro e h
    unfold Engine.goOn
    split
    · exact h.tryClean c
    · split
      · exact h.tryClean c
      · split
        · exact ih (h.passEnd c _)
        · exact h

theorem Engine.Finished.startSide (h : e.Finished n k) (c : Side) (o : Order) : (e.startSide x c o).Finished n k := by
  have entered := h.enter (x := x) c .trackPass
  have taken (f : Run → Run) (track : Nat) :
      ((((e.enter x c .trackPass).updRun c f).enterTrack x c o track).carryOn x c).Finished n k :=
    .goOn 8 c (Engine.Finished.enterTrack (entered.updChan c _) c o track)
  unfold Engine.startSide
  dsimp only
  split
  · exact entered.failSide c _
  · split
    · exact entered.failSide c _
    · split
      · split
        · exact entered.failSide c _
        · exact taken _ _
      · exact taken _ _

/-! ### What a free channel begins (R31, R48 to R54, R104, R113, R115, R157) -/

theorem Engine.Finished.markServed (h : e.Finished n k) (slot : Nat) (c : Side) : (e.markServed slot c).Finished n k :=
  h.updOrder slot fun _ => ⟨rfl, rfl⟩

theorem Engine.Finished.beginPositioning (h : e.Finished n k) (c : Side) : (e.beginPositioning x c).Finished n k := by
  unfold Engine.beginPositioning
  split
  · exact h
  · have selected (p : PairId) := (h.enter (x := x) c .positioning).select (x := x) c p false
    dsimp only
    split
    · exact selected _
    · split
      · exact ((selected _).setAct c _).release c
      · split
        · exact (selected _).failSide c _
        · have served (p : PairId) (slot : Nat) := ((selected p).markServed slot c).updChan c
          split
          · exact ((served _ _ _).setAct c _).release c
          · exact (served _ _ _).startPositioning c _ _ _ _

theorem Engine.Finished.beginPartnerWait (h : e.Finished n k) (c : Side) : (e.beginPartnerWait x c).Finished n k := by
  unfold Engine.beginPartnerWait
  split
  · exact h
  · have selected (p : PairId) := (h.enter (x := x) c .partnerWait).select (x := x) c p false
    dsimp only
    split
    · exact ((selected _).setAct c _).tryClean c
    · split
      · exact ((selected _).updChan c _).holdFailure c _
      · exact ((selected _).updChan c _).startPositioning c _ _ _ _

theorem Engine.Finished.beginStep (h : e.Finished n k) (c : Side) : (e.beginStep x c).Finished n k := by
  unfold Engine.beginStep
  split
  · exact h
  · have selected (p : PairId) := ((h.enter (x := x) c .surveyStep).select (x := x) c p true).setAct c
    dsimp only
    split
    · exact (selected _ _).endSurveyStep c
    · exact selected _ _

theorem Engine.Finished.startOrDefer (h : e.Finished n k) (c : Side) (b : Begin) :
    (e.startOrDefer x c b).Finished n k := by
  unfold Engine.startOrDefer
  split
  · exact h.updChan c _
  · cases b with
    | positioning => exact h.beginPositioning c
    | partnerWait => exact h.beginPartnerWait c
    | surveyStep => exact h.beginStep c

theorem Engine.Finished.joinWaiter (h : e.Finished n k) (w : Side) (slot : Nat) :
    (e.joinWaiter x w slot).Finished n k := by
  unfold Engine.joinWaiter
  dsimp only
  split
  · exact h
  · split
    · exact h
    · split
      · exact h.updChan w _
      · split
        · exact h.failSide w _
        · split
          · split
            · exact h.tryClean w
            · split
              · split
                · exact h.startSide w _
                · exact h.release w
              · exact h.goToTrack w _ _ _ _
          · exact (h.enter w _).updChan w _
          · split
            · exact (h.enter w _).updChan w _
            · exact (h.enter w _).startPositioning w _ _ _ _

theorem Engine.Finished.takeover (h : e.Finished n k) (j : Side) (o : Order) : (e.takeover x j o).Finished n k := by
  have go {e : Engine} (h : e.Finished n k) :
      (((e.serveWaiter j.other o.slot).startOrDefer x j .positioning).joinWaiter x j.other o.slot).Finished n k := by
    refine Engine.Finished.joinWaiter (Engine.Finished.startOrDefer ?_ j _) _ _
    unfold Engine.serveWaiter
    split
    · exact h.markServed _ _
    · exact h
  unfold Engine.takeover
  extract_lets w e1 e2 go'
  have bound : e2.Finished n k :=
    Engine.Finished.of_held (h.updOrder o.slot fun o => ⟨rfl, rfl⟩ : e1.Finished n k) rfl
  split
  · split
    · exact ((bound.updChan j _).decideFinish o.slot .ok false).freeWaiter _ _
    · exact go (bound.updOrder o.slot fun _ => ⟨rfl, rfl⟩)
  · exact go bound

theorem Engine.Finished.takeStep (h : e.Finished n k) (c : Side) (d : Drive) : (e.takeStep x c d).Finished n k := by
  unfold Engine.takeStep
  extract_lets survey e1
  have taken : e1.Finished n k := h.of_held rfl
  split
  · exact taken.updChan c _
  · exact taken.beginStep c

theorem Engine.Finished.setAttention (h : e.Finished n k) (bit : Nat) : (e.setAttention bit).Finished n k :=
  h.of_held rfl

theorem Engine.Finished.choose (h : e.Finished n k) (c : Side) : (e.choose x c).Finished n k := by
  have note {e : Engine} (h : e.Finished n k) (slot : Nat) : (e.noteRoom x c slot).Finished n k := by
    unfold Engine.noteRoom
    split
    · exact h
    · split
      · refine Engine.Finished.setAttention ?_ _
        exact h.updOrder slot fun _ => ⟨rfl, rfl⟩
      · exact h
  have noted : (e.noteRooms x c).Finished n k := .foldl (fun _ slot h => note h slot) _ h
  exact noted.of_held (Engine.choose_held x c).1

/-! ### Settling (R31, R115, R157) -/

theorem Engine.Finished.takeNext (h : e.Finished n k) (c : Side) : (e.takeNext x c).1.Finished n k := by
  unfold Engine.takeNext
  split
  · exact h.takeover c _
  · split
    · exact h
    · split
      · exact h.choose c
      · split
        · exact h.takeStep c _
        · dsimp only
          split
          · exact h.choose c
          · exact (h.choose c).takeStep c _

theorem Engine.Finished.settleChannel (h : e.Finished n k) (c : Side) : (e.settleChannel x c).1.Finished n k := by
  unfold Engine.settleChannel
  dsimp only
  split
  · exact h
  · split
    · split
      · exact h
      · exact h.takeNext c
    · split
      · exact h.of_held rfl
      · exact h.takeNext c

theorem Engine.Finished.settleLoop (rounds : Nat) : ∀ {e : Engine}, e.Finished n k →
    (e.settleLoop x rounds).Finished n k := by
  induction rounds with
  | zero => exact fun h => h
  | succ rounds ih =>
    intro e h
    have both := (h.settleChannel (x := x) .A).settleChannel (x := x) .B
    unfold Engine.settleLoop
    dsimp only
    split
    · exact ih both
    · exact both

end

/-- A finish decided stands through what follows an event. -/
theorem State.settle_finished {s : State} {n : Nat} {k : FinishCode} (h : s.engine.Finished n k) :
    s.settle.engine.Finished n k := by
  have settled : (s.engine.settle s.front).Finished n k := by
    unfold Engine.settle
    split
    · exact .settleLoop 12 h
    · exact h
  unfold State.settle
  dsimp only
  split
  · exact settled.of_held (Engine.enterConfig_around _ _).held
  · exact settled

end Sys2Proof.Machine

namespace Sys2Proof.Machine

/-! ### The count (R94, R97) -/

theorem Clock.count_goesOn {k : Clock} {n : Nat} (running : k.running = true) (remaining : k.remaining = n + 2) :
    k.count = { k with remaining := n + 1, phase := if k.window < n + 1 then .far else .near } := by
  simp [Clock.count, phaseAt, remaining, running]

theorem Clock.count_closes {k : Clock} (remaining : k.remaining = 1) :
    k.count = { k with remaining := 0, running := false, phase := .closed } := by
  simp [Clock.count, phaseAt, remaining]

theorem Front.counts_iff (x : Front) : x.counts = true ↔
    (x.ctl = .run ∨ x.ctl = .draining) ∧ x.clock.running = true ∧ 0 < x.clock.remaining := by
  simp only [Front.counts, Bool.and_eq_true, Front.active_iff, decide_eq_true_eq, and_assoc]

theorem State.closesGoingToFault_iff (s : State) : s.closesGoingToFault = true ↔
    s.front.ctl = .fault ∧ s.front.faultActive = true ∧ s.engine.port.queue ≠ [] ∧ s.front.clock.running = true ∧
      s.front.clock.remaining = 1 := by
  simp [State.closesGoingToFault, and_assoc]

section
variable {s : State}

theorem execEditionCount_goesOn (counts : s.front.counts = true) (left : s.front.clock.count.remaining ≠ 0) :
    exec .editionCount s = .next (s.setClock s.front.clock.count).settle := by
  refine congrArg Host.Outcome.next ((if_pos counts).trans (congrArg State.settle ?_))
  exact if_neg left

/-- The close has been counted and has reached the roster (R97, R98). -/
def State.closed (s : State) : State :=
  let counted := s.setClock s.front.clock.count
  { counted with engine := counted.engine.close counted.front }

theorem execEditionCount_closes (counts : s.front.counts = true) (closes : s.front.clock.count.remaining = 0) :
    exec .editionCount s = .next s.closed.settle := by
  refine congrArg Host.Outcome.next ((if_pos counts).trans (congrArg State.settle ?_))
  exact if_pos closes

/-- The entry to FAULT is under way: the close finds the roster stopped (R99; log 43). -/
theorem execEditionCount_fault (closes : s.closesGoingToFault = true) :
    exec .editionCount s = .next { s with
      front := s.front.withClock s.front.clock.count, engine := s.engine.setAttention attnClose } := by
  have stopped : ¬s.front.counts = true := by
    have fault := (s.closesGoingToFault_iff.mp closes).1
    simp [Front.counts_iff, fault]
  exact congrArg Host.Outcome.next ((if_neg stopped).trans (if_pos closes))

/-- There is no count without the running flag, with no time left, or outside RUN and DRAINING, an entry to FAULT
under way with the last second left apart. -/
theorem execEditionCount_idle (idle : s.front.clock.running = false ∨ s.front.clock.remaining = 0 ∨
      (s.front.ctl ≠ .run ∧ s.front.ctl ≠ .draining ∧ s.front.ctl ≠ .fault) ∨
      (s.front.ctl = .fault ∧
        (s.front.faultActive = false ∨ s.front.clock.remaining ≠ 1 ∨ s.engine.port.queue = []))) :
    exec .editionCount s = .next s := by
  have counts : ¬s.front.counts = true := by
    rw [Front.counts_iff]
    rintro ⟨ctl, running, left⟩
    rcases idle with idle | idle | ⟨run, draining, -⟩ | ⟨fault, -⟩
    · simp [idle] at running
    · omega
    · exact ctl.elim run draining
    · simp [fault] at ctl
  have closes : ¬s.closesGoingToFault = true := by
    rw [State.closesGoingToFault_iff]
    rintro ⟨fault, active, queue, running, last⟩
    rcases idle with idle | idle | ⟨-, -, idle⟩ | ⟨-, idle | idle | idle⟩
    · simp [idle] at running
    · omega
    · exact idle fault
    · simp [idle] at active
    · exact idle last
    · exact queue idle
  exact congrArg Host.Outcome.next ((if_neg counts).trans (if_neg closes))

end

/-! ### The close at the roster (R98) -/

theorem Order.lateAtClose_iff (o : Order) : o.lateAtClose = true ↔
    o.fields.drop = true ∧ o.finish = none ∧ o.state ≠ .running := by
  simp [Order.lateAtClose, and_assoc]

section
variable (x : Front) {e : Engine} {o : Order}

theorem Engine.close_of_none (h : ∀ o ∈ e.held, ¬o.lateAtClose = true) : e.close x = e.setAttention attnClose := by
  simp only [Engine.close, List.filter_eq_nil_iff.mpr h, List.map_nil]

/-- A waiting order of a slot in the list finishes at its turn, and the turns of the others leave it. -/
theorem Engine.foldl_finishWaiting_finished {n : Nat} (code : FinishCode) (late : Bool) (slots : List Nat) :
    ∀ {e : Engine}, n ∈ slots → e.order? n = some o → o.finish = none →
      (slots.foldl (fun e slot => e.finishWaiting x slot code late) e).Finished n code := by
  induction slots with
  | nil => exact fun mem => absurd mem List.not_mem_nil
  | cons slot slots ih =>
    intro e mem ho hf
    by_cases hs : n = slot
    · subst hs
      have finished : (e.finishWaiting x n code late).Finished n code :=
        ⟨_, Engine.finishWaiting_order? x ho hf code late, rfl⟩
      exact .foldl (fun _ slot h => h.finishWaiting slot code late) slots finished
    · have others := (Engine.finishWaiting_acts x e slot code late).others n hs
      exact ih ((List.mem_cons.mp mem).resolve_left hs) (others.trans ho) hf

/-- Every waiting DROP order finishes LATE. -/
theorem Engine.close_finished (hn : (e.held.map Order.slot).Nodup) (ho : o ∈ e.held) (late : o.lateAtClose = true) :
    (e.close x).Finished o.slot .late := by
  have mem : o.slot ∈ (e.held.filter Order.lateAtClose).map Order.slot :=
    List.mem_map_of_mem (List.mem_filter.mpr ⟨ho, late⟩)
  have found : e.order? o.slot = some o := Engine.order?_of_mem hn ho
  unfold Engine.close
  dsimp only
  split
  · rename_i empty
    rw [empty] at mem
    exact absurd mem List.not_mem_nil
  · exact Engine.foldl_finishWaiting_finished x .late true _ mem found (o.lateAtClose_iff.mp late).2.1

end

theorem State.closed_of_none {s : State} (h : ∀ o ∈ s.engine.held, ¬o.lateAtClose = true) :
    s.closed = { s.setClock s.front.clock.count with
      engine := (s.setClock s.front.clock.count).engine.setAttention attnClose } := by
  have closed := Engine.close_of_none (s.front.withClock s.front.clock.count)
    (e := (s.setClock s.front.clock.count).engine) h
  unfold State.closed
  dsimp only
  rw [← closed]
  rfl

/-- The close's LATE finishes stand through the settling. -/
theorem State.closed_settle_finished {s : State} (hn : (s.engine.held.map Order.slot).Nodup) {o : Order}
    (ho : o ∈ s.engine.held) (late : o.lateAtClose = true) : s.closed.settle.engine.Finished o.slot .late :=
  State.settle_finished (Engine.close_finished (e := (s.setClock s.front.clock.count).engine) _ hn ho late)

/-- Settles O38: the count by what is left of the clock, the close by what it finds at the roster. -/
theorem editionCountsAndCloses : Obligations.EditionCountsAndCloses := by
  refine ⟨fun s n => ⟨fun ctl running remaining => ?_, execEditionCount_idle⟩, fun s once running remaining => ?_⟩
  · have counts : s.front.counts = true := s.front.counts_iff.mpr ⟨ctl, running, by omega⟩
    have clock := Clock.count_goesOn running remaining
    rw [execEditionCount_goesOn counts (by simp [clock]), clock]
    simp only [State.setClock, Engine.writeClock_eq, Front.withClock, running, if_true]
  · have clock := Clock.count_closes remaining
    have closes : s.front.clock.count.remaining = 0 := by rw [clock]
    have counts (ctl : s.front.ctl = .run ∨ s.front.ctl = .draining) : s.front.counts = true :=
      s.front.counts_iff.mpr ⟨ctl, running, by omega⟩
    refine ⟨fun ctl noLate => ?_, fun ctl => ?_, fun fault active queue => ?_⟩
    · rw [execEditionCount_closes (counts ctl) closes,
        State.closed_of_none fun o ho late => noLate o ho (o.lateAtClose_iff.mp late), clock]
      rfl
    · refine ⟨_, execEditionCount_closes (counts ctl) closes, ?_, State.settle_mem _, fun o ho late => ?_⟩
      · exact (State.settle_within _).clock.trans clock
      · obtain ⟨o', ho', code⟩ := State.closed_settle_finished once.once ho (o.lateAtClose_iff.mpr late)
        obtain ⟨mem, slot⟩ := Engine.order?_mem ho'
        exact ⟨o', mem, slot, code⟩
    · rw [execEditionCount_fault (s.closesGoingToFault_iff.mpr ⟨fault, active, queue, running, remaining⟩), clock]
      rfl

end Sys2Proof.Machine
